-- ==== Sys2Proof/Word.lean ====
section
/-! DEFINITION. The word types of the block (00_scope.md R12, R13): bit 0 is the least significant bit. -/

namespace Sys2Proof

/-- A byte: a command opcode, a command argument, a byte on the bus. -/
abbrev Byte := BitVec 8

/-- A 16-bit raw sample or result datum. -/
abbrev Half := BitVec 16

/-- A 32-bit word of the host data port, and the command word. -/
abbrev Word := BitVec 32

/-- A 64-bit register holding a Q31.32 number. -/
abbrev Dword := BitVec 64

/-- A host register offset, 0x00 to 0x7F. -/
abbrev Offset := BitVec 7

/-- A device address on the two-wire bus (20_memory.md R210). -/
abbrev BusAddr := BitVec 7

end Sys2Proof
end

