-- ==== Sys2Proof/Machine/Convert.lean ====
section
/-! DEFINITION. The Unit Conversion Layer as exact integer arithmetic with one rounding
(43_conversion.md R550 to R553; 00_scope.md R14, R15). A Q31.32 value is the integer v that stands for
v / 2^32. -/

namespace Sys2Proof.Machine

/-- `trunc_64`, R14. -/
def trunc64 (v : Int) : Int := v % 2 ^ 64

/-- `s64`, R14: a number read as a 64-bit two's-complement number. -/
def s64 (v : Int) : Int := if trunc64 v < 2 ^ 63 then trunc64 v else trunc64 v - 2 ^ 64

/-- `rnd(n, d)` for d > 0, R15: n/d rounded to the nearest integer, ties toward plus infinity. -/
def rnd (n d : Int) : Int := (2 * n + d) / (2 * d)

/-- `celsius_fx(t)`, R550. -/
def celsiusFx (t : Nat) : Int := rnd (4393 * 65536 * (t : Int) - 4685 * 2 ^ 30) 25

/-- `rh_fx(h)`, R551. -/
def rhFx (h : Nat) : Int := 125 * 65536 * (h : Int) - 6 * 2 ^ 32

/-- The temperature scales, R552. -/
inductive Scale where
  | cel
  | kel
  | fah
  | ran
  | new
  | del
  | rea
  | rom
  deriving DecidableEq, Repr

/-- The numerator of a scale's factor, R552. -/
def Scale.an : Scale → Int
  | .cel => 1
  | .kel => 1
  | .fah => 9
  | .ran => 9
  | .new => 33
  | .del => -3
  | .rea => 4
  | .rom => 21

/-- The denominator of a scale's factor, R552. -/
def Scale.ad : Scale → Int
  | .cel => 1
  | .kel => 1
  | .fah => 5
  | .ran => 5
  | .new => 100
  | .del => 2
  | .rea => 5
  | .rom => 40

/-- The numerator of a scale's offset, R552. -/
def Scale.bn : Scale → Int
  | .cel => 0
  | .kel => 5463
  | .fah => 32
  | .ran => 49167
  | .new => 0
  | .del => 150
  | .rea => 0
  | .rom => 15

/-- The denominator of a scale's offset, R552. -/
def Scale.bd : Scale → Int
  | .cel => 1
  | .kel => 20
  | .fah => 1
  | .ran => 100
  | .new => 1
  | .del => 1
  | .rea => 1
  | .rom => 2

/-- The scale of a Celsius value, rounded once, before it is read as 64 bits (R552). -/
def scaleExact (sc : Scale) (c : Int) : Int :=
  rnd (sc.an * sc.bd * c + sc.bn * sc.ad * 2 ^ 32) (sc.ad * sc.bd)

/-- `scale_fx(s, c)`, R552. -/
def scaleFx (sc : Scale) (c : Int) : Int := s64 (scaleExact sc c)

/-- The 64-bit register that holds a Q31.32 number. -/
def q32 (v : Int) : Dword := BitVec.ofInt 64 v

end Sys2Proof.Machine
end

