-- ==== Sys2Proof/Config.lean ====
section
/-! DEFINITION. What is fixed when the block is built (00_scope.md R7 to R11, decision D27), the events
that the agents outside the sequencer can bring about (10_state.md R136), and the one free value of the
model: the event that comes next when State lists none. -/

namespace Sys2Proof

/-- `BUS_ADDR`, R7: the one address the block puts on the bus. It is no parameter. -/
def Config.busAddr : BusAddr := 0x40#7

/-- The two values of `P_RES_TARGET`, R9. -/
inductive ResTarget where
  /-- the heater-control register: read command 0x11, write command 0x51 -/
  | htr
  /-- the user register: read command 0xE7, write command 0xE6 -/
  | user
  deriving DecidableEq, Repr

/-- The build parameters, R8 to R11. Log entry 1 says why they stand in State. -/
structure Params where
  /-- `P_READ_STOP`, R8: the stop flag of the command-write half of every read. -/
  readStop : Bool
  /-- `P_RES_TARGET`, R9. -/
  resTarget : ResTarget
  /-- `P_RES_HI_BIT`, R10. -/
  resHiBit : Fin 8
  /-- `P_RES_LO_BIT`, R10. -/
  resLoBit : Fin 8
  /-- `P_DEVID_TABLE`, R11: byte and class code. -/
  devidTable : List (Byte × Byte)
  /-- `P_FW_TABLE`, R11: byte and class code. -/
  fwTable : List (Byte × Byte)
  deriving DecidableEq, Repr

/-- The default parameters of R8, R9, R10, R430 and R431. -/
def Params.default : Params where
  readStop := true
  resTarget := .htr
  resHiBit := 7
  resLoBit := 0
  devidTable := [(0x00#8, 1#8), (0xFF#8, 1#8), (0x0D#8, 2#8), (0x14#8, 3#8), (0x15#8, 4#8)]
  fwTable := [(0xFF#8, 1#8), (0x20#8, 2#8)]

/-- The five statuses a transport can answer with, 20_memory.md R215. -/
inductive BusStatus where
  | success
  | dataTooLong
  | addrNack
  | dataNack
  | otherError
  deriving DecidableEq, Repr

/-- What the transport answers to one request: a status and, for a read, bytes (R215). The bytes of an
answer to a write, and of a failed read, are never looked at (R214). -/
structure Answer where
  status : BusStatus
  bytes : List Byte
  deriving DecidableEq, Repr

/-- One thing an agent does next (R4, R136, R700). -/
inductive Event where
  /-- the host performs `MemRead(off, 4)` -/
  | hostRead (off : Offset)
  /-- the host performs `MemWrite(off, 4, v)` -/
  | hostWrite (off : Offset) (v : Word)
  /-- the host performs the next access of the program State holds for it (30_encoding.md R311) -/
  | hostProgram
  /-- the sequencer takes its step (R132) -/
  | sequencer
  /-- the transport answers the outstanding request (R133) -/
  | transport (a : Answer)
  /-- the transport answers a request that a block reset has abandoned (70_reset_and_hazards.md R701) -/
  | lateAnswer (a : Answer)
  /-- the platform asserts block reset (R700) -/
  | blockReset
  deriving DecidableEq, Repr, Inhabited

/-- FREE VALUE (log entry 3): the n-th event that comes when State lists no coming event. R136 lets any
enabled step come next and R215 lets the transport answer anything, so nothing is known of it. -/
opaque Config.freeEvent : Nat → Event

end Sys2Proof
end

