-- ==== Sys2Proof/Syntax.lean ====
section
/-! DEFINITION. The 17 commands of the block (30_encoding.md R302), one constructor per row of
spec/opcode_table.json. A command carries ARG where the rule's ARG column gives it a use; a command
whose ARG is "ignored" carries none (R304). -/

namespace Sys2Proof

/-- One command. The docstring of each constructor names its mnemonic and its rule. -/
inductive Instr where
  /-- MEAS_RH, R400: measure humidity (hold master). -/
  | measRh
  /-- MEAS_T, R405: measure temperature (hold master). -/
  | measT
  /-- READ_SERIAL, R410. -/
  | readSerial
  /-- READ_DEVID, R420. -/
  | readDevid
  /-- READ_FW, R425. -/
  | readFw
  /-- SOFT_RESET, R450. -/
  | softReset
  /-- READ_USER, R455. -/
  | readUser
  /-- WRITE_USER, R460; `arg` is the byte written. -/
  | writeUser (arg : Byte)
  /-- READ_HTR, R465. -/
  | readHtr
  /-- WRITE_HTR, R470; `arg` is the byte written. -/
  | writeHtr (arg : Byte)
  /-- HEATER_ON, R505. -/
  | heaterOn
  /-- HEATER_OFF, R510. -/
  | heaterOff
  /-- SET_HLVL, R515; `arg` is the level, 0 to 255, of which 0 to 15 are legal when it runs. -/
  | setHlvl (arg : Byte)
  /-- SET_RES, R520; `arg[1]` is rhBit, `arg[0]` is tempBit, `arg[7:2]` must be 0 when it runs. -/
  | setRes (arg : Byte)
  /-- CVT_T, R560. -/
  | cvtT
  /-- CVT_RH, R565. -/
  | cvtRh
  /-- CVT_C, R570. -/
  | cvtC
  deriving DecidableEq, Repr

end Sys2Proof
end

