-- ==== Sys2Proof/Machine/State.lean ====
section
/-! DEFINITION. The state of the block and of the agents around it, as plain data (10_state.md), the
reasons a step can stop, and the state after reset (R140). -/

namespace Sys2Proof.Machine

/-- The nine status codes STAT.STATUS can hold, 60_exceptions.md R600. -/
inductive Status where
  | success
  | dataTooLong
  | addrNack
  | dataNack
  | otherError
  | levelOutOfRange
  | voltageTooLow
  | invalidResolution
  | illegalOpcode
  deriving DecidableEq, Repr

/-- The sequencer's phase, R120. -/
inductive Phase where
  | idle
  | run
  deriving DecidableEq, Repr

/-- A transport request, 20_memory.md R212. -/
inductive Request where
  /-- `Write(addr, bytes, stop)` -/
  | write (addr : BusAddr) (bytes : List Byte) (stop : Bool)
  /-- `Read(addr, count)` -/
  | read (addr : BusAddr) (count : Nat)
  deriving DecidableEq, Repr

/-- A transport response, R213 and R214. -/
inductive Response where
  /-- `WriteDone(st)` -/
  | writeDone (st : BusStatus)
  /-- `ReadDone(st, bs)` -/
  | readDone (st : BusStatus) (bytes : List Byte)
  deriving DecidableEq, Repr

/-- The result file OUT[0..8], R106, under the names of its table. -/
structure OutFile where
  cel : Dword
  kel : Dword
  fah : Dword
  ran : Dword
  new : Dword
  del : Dword
  rea : Dword
  rom : Dword
  rh : Dword
  deriving DecidableEq, Repr

/-- The host-visible registers by name, 30_encoding.md R311. -/
inductive HostReg where
  | cmd
  | stat
  | opnd
  | result
  | celinLo
  | celinHi
  | outLo (k : Fin 9)
  | outHi (k : Fin 9)
  deriving DecidableEq, Repr

/-- A command as an assembler line writes it, R310. -/
inductive AsmCommand where
  /-- `<MNEMONIC>` or `<MNEMONIC> <byte>` -/
  | plain (i : Instr)
  /-- `SET_RES <rh>, <t>` -/
  | setRes (rh t : Bool)
  /-- `<MNEMONIC> #<byte>`; of the command given, only its mnemonic counts -/
  | hash (i : Instr) (arg : Byte)
  deriving DecidableEq, Repr

/-- A statement of a host program, R311. -/
inductive HostStmt where
  /-- `CMD <command>` -/
  | cmd (c : AsmCommand)
  /-- `WR <register>, <imm32>` -/
  | wr (r : HostReg) (v : Word)
  /-- `RD <register>` -/
  | rd (r : HostReg)
  /-- `WAIT` -/
  | wait
  deriving DecidableEq, Repr

/-- The state. INVENTORY.md lists each field with its rule. -/
structure State where
  /-- The build parameters; no step writes them (decision D27, log entry 1). -/
  params : Params
  /-- STAT.BUSY, R102. -/
  busy : Bool
  /-- STAT.VALID, R102. -/
  valid : Bool
  /-- STAT.OVR, R102. -/
  ovr : Bool
  /-- STAT.STATUS, R102. -/
  status : Status
  /-- STAT.LAST_OP, R102. -/
  lastOp : Byte
  /-- OPND.RAW, R103. -/
  opndRaw : Half
  /-- RESULT.DATA16, R104. -/
  data16 : Half
  /-- RESULT.DCLASS, R104. -/
  dclass : Byte
  /-- The host-visible register CELIN, R105. -/
  celinReg : Dword
  /-- OUT[0..8], R106. -/
  out : OutFile
  /-- R120. -/
  phase : Phase
  /-- The latched opcode, R120. -/
  op : Byte
  /-- The latched argument, R120. -/
  arg : Byte
  /-- The latched OPND.RAW, R120. -/
  opnd : Half
  /-- The latched CELIN, R120. -/
  celin : Dword
  /-- The number of bus transactions the running command has completed, R121. -/
  pc : Nat
  /-- The byte read by the read half of a read-modify-write, R120 and R122. -/
  tmp : Byte
  /-- The outstanding transport request, R123. -/
  pend : Option Request
  /-- The response the body resumes with at the next sequencer step, R133 (log entry 4). -/
  resp : Option Response
  /-- TRACE, R125: an observation, in the order the responses were received. -/
  trace : List (Request × Response)
  /-- The words the host has read, oldest first: an observation of the model (log entry 7). -/
  reads : List (Offset × Word)
  /-- The rest of the host's program (log entry 8). -/
  prog : List HostStmt
  /-- The events that come next, the first one first (log entry 2). -/
  inputs : List Event
  /-- How many events have been drawn from `Config.freeEvent` (log entry 3). -/
  draws : Nat
  deriving DecidableEq, Repr

/-- The reasons a step can stop with a fault. -/
inductive Fault where
  /-- Raised by a command body when the sequencer steps at a step index and response that fit no
  point of the body (`pc` past the body's end, or no response, or one of the wrong kind or length).
  The spec names no such state and no run reaches one. Safe: the machine stops where the spec says
  nothing (log entry 9). -/
  | offBody
  deriving DecidableEq, Repr

/-- The reasons a step can have no meaning. -/
inductive Refusal where
  /-- Raised by `exec` for a command that has no meaning yet, by its mnemonic. Safe. No arm raises it
  now: every command of the opcode table has its meaning. -/
  | notModelled (mnemonic : String)
  deriving DecidableEq, Repr

/-- Every OUT register at its reset value, R140. -/
def OutFile.zero : OutFile := ⟨0, 0, 0, 0, 0, 0, 0, 0, 0⟩

/-- The block with given parameters right after reset, at the start of an observed run (R125, R140). -/
def State.resetWith (p : Params) : State where
  params := p
  busy := false
  valid := false
  ovr := false
  status := .success
  lastOp := 0#8
  opndRaw := 0#16
  data16 := 0#16
  dclass := 0#8
  celinReg := 0#64
  out := OutFile.zero
  phase := .idle
  op := 0#8
  arg := 0#8
  opnd := 0#16
  celin := 0#64
  pc := 0
  tmp := 0#8
  pend := none
  resp := none
  trace := []
  reads := []
  prog := []
  inputs := []
  draws := 0

/-- The machine right after reset, with the default parameters. -/
def State.reset : State := State.resetWith Params.default

end Sys2Proof.Machine
end

