-- ==== Sys2Proof/Machine/Flags.lean ====
section
/-! DEFINITION. The status codes as numbers and the flags of STAT: the STAT word the host reads, and the
four events that write a flag (10_state.md R102, R108; 60_exceptions.md R600). -/

namespace Sys2Proof.Machine

/-- The number of a status code, R600. -/
def Status.code : Status → Byte
  | .success => 0x00#8
  | .dataTooLong => 0x01#8
  | .addrNack => 0x02#8
  | .dataNack => 0x03#8
  | .otherError => 0x04#8
  | .levelOutOfRange => 0x05#8
  | .voltageTooLow => 0x06#8
  | .invalidResolution => 0x07#8
  | .illegalOpcode => 0x08#8

/-- A transport status is reported verbatim, R601. -/
def transportStatus : BusStatus → Status
  | .success => .success
  | .dataTooLong => .dataTooLong
  | .addrNack => .addrNack
  | .dataNack => .dataNack
  | .otherError => .otherError

/-- The STAT word, R102: BUSY bit 0, VALID bit 1, OVR bit 2, STATUS bits 15:8, LAST_OP bits 23:16, and
zeros elsewhere. -/
def State.statWord (s : State) : Word :=
  0#8 ++ s.lastOp ++ s.status.code ++ 0#5 ++ BitVec.ofBool s.ovr ++ BitVec.ofBool s.valid ++ BitVec.ofBool s.busy

/-- The flags of accept, R130: BUSY set, VALID cleared, LAST_OP the opcode. -/
def State.acceptFlags (op : Byte) (s : State) : State :=
  { s with busy := true, valid := false, lastOp := op }

/-- The flags of completion, R131: STATUS the code, VALID whether it is SUCCESS, BUSY cleared. -/
def State.completionFlags (code : Status) (s : State) : State :=
  { s with status := code, valid := decide (code = .success), busy := false }

/-- The flag of an overrun, R134. -/
def State.setOvr (s : State) : State := { s with ovr := true }

/-- The effect of a host write of `v` to STAT, R135: writing 1 to bit 2 clears OVR. -/
def State.writeStat (v : Word) (s : State) : State :=
  { s with ovr := s.ovr && !v.getLsbD 2 }

end Sys2Proof.Machine
end

