-- ==== Sys2Proof/WellFormed.lean ====
section
/-! DEFINITION. Well-formed syntax and well-formed build parameters.

Every operand of a command is a whole 8-bit field (30_encoding.md R301): WRITE_USER and WRITE_HTR send
any byte (41_reset_and_primitives.md R460, R470), and SET_HLVL and SET_RES must be able to carry the
values they reject when they run (R515, R520). So no command is ill-formed as syntax. The checks are on
the parameters (00_scope.md R10, R11). -/

namespace Sys2Proof

/-- Every command is well formed: an illegal level or resolution is a status of the running command
(R604), not an ill-formed command word. One arm per constructor, so that a new one cannot slip past. -/
def Instr.wellFormed : Instr → Bool
  | .measRh | .measT | .readSerial | .readDevid | .readFw => true
  | .softReset | .readUser | .readHtr => true
  | .writeUser _ | .writeHtr _ => true
  | .heaterOn | .heaterOff => true
  | .setHlvl _ | .setRes _ => true
  | .cvtT | .cvtRh | .cvtC => true

/-- R10: the two resolution bit positions are distinct. (That each is in 0..7 is their type.) -/
def Params.bitsDistinct (p : Params) : Bool := p.resHiBit != p.resLoBit

/-- R11: a decode table maps each byte to at most one class. -/
def Params.keysDistinct (t : List (Byte × Byte)) : Bool := decide (t.map Prod.fst).Nodup

/-- R11: a decode table's class codes are non-zero (0 is UNKNOWN). -/
def Params.classesNonzero (t : List (Byte × Byte)) : Bool := t.all fun row => row.2 != 0#8

/-- The parameters are a choice that R8 to R11 allow. -/
def Params.wellFormed (p : Params) : Bool :=
  p.bitsDistinct &&
  Params.keysDistinct p.devidTable && Params.classesNonzero p.devidTable &&
  Params.keysDistinct p.fwTable && Params.classesNonzero p.fwTable

end Sys2Proof
end

