-- ==== Sys2Proof/Decode.lean ====
section
/-! DEFINITION. The command word (30_encoding.md R300 to R305): its fields, the total decoder, which
rejects an unassigned opcode by name, and the encoder (R310). -/

namespace Sys2Proof

/-- Why a command word is no command: its OP field is unassigned (R303). -/
inductive DecodeError where
  | unassigned (op : Byte)
  deriving DecidableEq, Repr

/-- OP, bits 7:0 of the command word (R300). -/
def opField (v : Word) : Byte := v.extractLsb' 0 8

/-- ARG, bits 15:8 of the command word (R300). -/
def argField (v : Word) : Byte := v.extractLsb' 8 8

/-- The opcode map, R302. Every opcode it does not list is unassigned (R303). -/
def decodeCommand (op arg : Byte) : Except DecodeError Instr :=
  match op with
  | 0x01#8 => .ok .measRh
  | 0x02#8 => .ok .measT
  | 0x03#8 => .ok .readSerial
  | 0x04#8 => .ok .readDevid
  | 0x05#8 => .ok .readFw
  | 0x06#8 => .ok .softReset
  | 0x07#8 => .ok .readUser
  | 0x08#8 => .ok (.writeUser arg)
  | 0x09#8 => .ok .readHtr
  | 0x0A#8 => .ok (.writeHtr arg)
  | 0x0B#8 => .ok .heaterOn
  | 0x0C#8 => .ok .heaterOff
  | 0x0D#8 => .ok (.setHlvl arg)
  | 0x0E#8 => .ok (.setRes arg)
  | 0x10#8 => .ok .cvtT
  | 0x11#8 => .ok .cvtRh
  | 0x12#8 => .ok .cvtC
  | _ => .error (.unassigned op)

/-- Decoding of a whole command word. Bits 31:16 are ignored (R300, R304). -/
def decode (v : Word) : Except DecodeError Instr := decodeCommand (opField v) (argField v)

/-- The opcode of a command, R302. -/
def Instr.opcode : Instr → Byte
  | .measRh => 0x01#8
  | .measT => 0x02#8
  | .readSerial => 0x03#8
  | .readDevid => 0x04#8
  | .readFw => 0x05#8
  | .softReset => 0x06#8
  | .readUser => 0x07#8
  | .writeUser _ => 0x08#8
  | .readHtr => 0x09#8
  | .writeHtr _ => 0x0A#8
  | .heaterOn => 0x0B#8
  | .heaterOff => 0x0C#8
  | .setHlvl _ => 0x0D#8
  | .setRes _ => 0x0E#8
  | .cvtT => 0x10#8
  | .cvtRh => 0x11#8
  | .cvtC => 0x12#8

/-- The ARG the assembler gives a command: its operand, and 0 where it has none (R310). -/
def Instr.argByte : Instr → Byte
  | .writeUser arg | .writeHtr arg | .setHlvl arg | .setRes arg => arg
  | .measRh | .measT | .readSerial | .readDevid | .readFw => 0#8
  | .softReset | .readUser | .readHtr => 0#8
  | .heaterOn | .heaterOff => 0#8
  | .cvtT | .cvtRh | .cvtC => 0#8

/-- The command word of an opcode and an argument: `zext_32(ARG << 8 | OP)` (R310). -/
def commandWord (op arg : Byte) : Word := (0#16 ++ arg) ++ op

/-- The command word of a command (R310). -/
def encode (i : Instr) : Word := commandWord i.opcode i.argByte

/-- The word of a row of spec/opcode_table.json whose low `nbits` bits are `w` and whose other bits
are 0. A command is one 32-bit word (R300), so bit 0 of `w` is bit 0 of the command word. -/
def tableWord (nbits w : Nat) : Word := BitVec.ofNat 32 (w % 2 ^ nbits)

/-- The command the decoder reads from a word of the opcode table. -/
def decodeTableWord (nbits w : Nat) : Option Instr :=
  match decode (tableWord nbits w) with
  | .ok i => some i
  | .error _ => none

end Sys2Proof
end

