-- ==== Sys2Proof/Machine/Operands.lean ====
section
/-! DEFINITION. The operand forms: chip command bytes (30_encoding.md R306), the bytes the
read-modify-write commands write back (42_read_modify_write.md), the identity decode tables
(40_measure_and_identity.md R430, R431), big-endian assembly (20_memory.md R217), and the table of
transaction sequences (R307). -/

namespace Sys2Proof.Machine

/-- Measure humidity (hold master), R306. -/
def cmdMeasureHumidity : Byte := 0xE5#8
/-- Measure temperature (hold master), R306. -/
def cmdMeasureTemperature : Byte := 0xE3#8
/-- Reset, R306. -/
def cmdReset : Byte := 0xFE#8
/-- Read serial, R306. -/
def cmdReadSerial : List Byte := [0xFA#8, 0x0F#8]
/-- Read device ID, R306. -/
def cmdReadDeviceId : List Byte := [0xFC#8, 0xC9#8]
/-- Read firmware version, R306. -/
def cmdReadFirmware : List Byte := [0x84#8, 0xB8#8]
/-- Write heater control, R306. -/
def cmdWriteHeater : Byte := 0x51#8
/-- Read heater control, R306. -/
def cmdReadHeater : Byte := 0x11#8
/-- Write user register, R306. -/
def cmdWriteUser : Byte := 0xE6#8
/-- Read user register, R306. -/
def cmdReadUser : Byte := 0xE7#8

/-- The read command `rc` of SET_RES, R9 and R520. -/
def resReadCommand (p : Params) : Byte :=
  match p.resTarget with
  | .htr => cmdReadHeater
  | .user => cmdReadUser

/-- The write command `wc` of SET_RES, R9 and R520. -/
def resWriteCommand (p : Params) : Byte :=
  match p.resTarget with
  | .htr => cmdWriteHeater
  | .user => cmdWriteUser

/-- Two bytes from the chip, first byte received in bits 15:8 (R217, R218). -/
def bigEndian (b0 b1 : Byte) : Half := b0 ++ b1

/-- `zext_16` of a byte, R14. -/
def zext16 (b : Byte) : Half := b.setWidth 16

/-- `new = (tmp & ~M) | V`, R501. -/
def modifyBits (mask value tmp : Byte) : Byte := (tmp &&& ~~~mask) ||| value

/-- Bit 6 of the user register, the supply-voltage-too-low indicator (R505). -/
def voltageLow (b : Byte) : Bool := b.getLsbD 6

/-- The byte HEATER_ON writes back, R505: bit 2 set. -/
def heaterOnByte (tmp : Byte) : Byte := modifyBits 0x04#8 0x04#8 tmp

/-- The byte HEATER_OFF writes back, R510: bit 2 clear. -/
def heaterOffByte (tmp : Byte) : Byte := modifyBits 0x04#8 0x00#8 tmp

/-- A level SET_HLVL rejects, R515: above 15. -/
def levelIllegal (arg : Byte) : Bool := decide (15 < arg.toNat)

/-- The byte SET_HLVL writes back, R515: bits 3..0 are `arg[3:0]`. -/
def levelByte (arg tmp : Byte) : Byte := modifyBits 0x0F#8 (arg &&& 0x0F#8) tmp

/-- A resolution argument SET_RES rejects, R520: `arg[7:2]` not 0. -/
def resolutionIllegal (arg : Byte) : Bool := arg.extractLsb' 2 6 != 0#6

/-- The mask M of SET_RES, R520. -/
def resolutionMask (p : Params) : Byte := (1#8 <<< p.resHiBit.val) ||| (1#8 <<< p.resLoBit.val)

/-- The value V of SET_RES, R520: `arg[1]` at the high position, `arg[0]` at the low one. -/
def resolutionValue (p : Params) (arg : Byte) : Byte :=
  ((arg >>> 1 &&& 1#8) <<< p.resHiBit.val) ||| ((arg &&& 1#8) <<< p.resLoBit.val)

/-- The byte SET_RES writes back, R520. -/
def resolutionByte (p : Params) (arg tmp : Byte) : Byte :=
  modifyBits (resolutionMask p) (resolutionValue p arg) tmp

/-- Look a byte up in a decode table; a byte not in it has class 0, UNKNOWN (R11). -/
def classOf : List (Byte × Byte) → Byte → Byte
  | [], _ => 0#8
  | (key, cls) :: rest, b => if b = key then cls else classOf rest b

/-- `devid_class`, R430. -/
def devidClass (p : Params) (b : Byte) : Byte := classOf p.devidTable b

/-- `fw_class`, R431. -/
def fwClass (p : Params) (b : Byte) : Byte := classOf p.fwTable b

/-- `Write(0x40, bytes, stop)`: every request carries the one bus address (R210, R213). -/
def busWriteReq (bytes : List Byte) (stop : Bool) : Request := .write Config.busAddr bytes stop

/-- `Read(0x40, n)`, R214. -/
def busReadReq (n : Nat) : Request := .read Config.busAddr n

/-- The address a request carries. -/
def Request.addr : Request → BusAddr
  | .write a _ _ => a
  | .read a _ => a

/-- Transaction k (counted from 0) of a two-transaction read, R307. -/
def readTransaction (p : Params) (cmd : List Byte) (n : Nat) : Nat → Option Request
  | 0 => some (busWriteReq cmd p.readStop)
  | 1 => some (busReadReq n)
  | _ => none

/-- Transaction k of a command of one write, R307. -/
def writeTransaction (bytes : List Byte) : Nat → Option Request
  | 0 => some (busWriteReq bytes true)
  | _ => none

/-- Transaction k of a read-modify-write whose third write is `third`, R307 and R500. -/
def rmwTransaction (p : Params) (rc : Byte) (third : Option (List Byte)) : Nat → Option Request
  | 0 => some (busWriteReq [rc] p.readStop)
  | 1 => some (busReadReq 1)
  | 2 => third.map fun bytes => busWriteReq bytes true
  | _ => none

/-- The table of R307: transaction k (counted from 0) of a command that issues it, where `tmp` is the
byte its read half read. None where the command has no such transaction: past its last one, after
failed validation, and for the third one of HEATER_ON when bit 6 of the byte is set. -/
def transaction (p : Params) (tmp : Byte) (i : Instr) (k : Nat) : Option Request :=
  match i with
  | .measRh => readTransaction p [cmdMeasureHumidity] 2 k
  | .measT => readTransaction p [cmdMeasureTemperature] 2 k
  | .readSerial => readTransaction p cmdReadSerial 2 k
  | .readDevid => readTransaction p cmdReadDeviceId 1 k
  | .readFw => readTransaction p cmdReadFirmware 1 k
  | .softReset => writeTransaction [cmdReset] k
  | .readUser => readTransaction p [cmdReadUser] 1 k
  | .writeUser arg => writeTransaction [cmdWriteUser, arg] k
  | .readHtr => readTransaction p [cmdReadHeater] 1 k
  | .writeHtr arg => writeTransaction [cmdWriteHeater, arg] k
  | .heaterOn =>
    rmwTransaction p cmdReadUser (if voltageLow tmp then none else some [cmdWriteUser, heaterOnByte tmp]) k
  | .heaterOff => rmwTransaction p cmdReadUser (some [cmdWriteUser, heaterOffByte tmp]) k
  | .setHlvl arg =>
    if levelIllegal arg then none
    else rmwTransaction p cmdReadHeater (some [cmdWriteHeater, levelByte arg tmp]) k
  | .setRes arg =>
    if resolutionIllegal arg then none
    else rmwTransaction p (resReadCommand p) (some [resWriteCommand p, resolutionByte p arg tmp]) k
  | .cvtT | .cvtRh | .cvtC => none

end Sys2Proof.Machine
end

