-- ==== Sys2Proof/Machine/Ops.lean ====
section
/-! DEFINITION. The shared operations: accept, completion and ending with an error, the bus primitives,
the transport's answer, the bodies that commands share, the host's reads and writes, and block reset
(10_state.md, 20_memory.md, 42_read_modify_write.md R500, 60_exceptions.md R610,
70_reset_and_hazards.md R700). -/

namespace Sys2Proof.Machine

/-! ### Accept and completion -/

/-- Accept of the command word `v`, R130. -/
def State.accept (v : Word) (s : State) : State :=
  { s.acceptFlags (opField v) with
    op := opField v
    arg := argField v
    opnd := s.opndRaw
    celin := s.celinReg
    pc := 0
    tmp := 0#8
    pend := none
    resp := none
    phase := .run }

/-- Completion with a code, R131, after the results (if any) are written. -/
def State.complete (code : Status) (s : State) : State :=
  { s.completionFlags code with phase := .idle, pend := none, resp := none }

/-- `raise Status(code)`, R610: the one way a command ends with an error. No result register is written;
nothing is saved and control goes nowhere. There is no return from it: the block is IDLE (R612). -/
def raiseStatus (code : Status) (s : State) : Host.Outcome State Fault Refusal :=
  .next (s.complete code)

/-- Write RESULT, R104: DATA16 and DCLASS together. -/
def State.writeResult (d : Half) (cls : Byte) (s : State) : State :=
  { s with data16 := d, dclass := cls }

/-- Write the eight temperature outputs of a Celsius value, R405, R560, R570. -/
def State.writeTemps (c : Int) (s : State) : State :=
  { s with out :=
    { cel := q32 c
      kel := q32 (scaleFx .kel c)
      fah := q32 (scaleFx .fah c)
      ran := q32 (scaleFx .ran c)
      new := q32 (scaleFx .new c)
      del := q32 (scaleFx .del c)
      rea := q32 (scaleFx .rea c)
      rom := q32 (scaleFx .rom c)
      rh := s.out.rh } }

/-- Write OUT_RH of a raw code, R400, R565. -/
def State.writeRh (h : Nat) (s : State) : State :=
  { s with out := { s.out with rh := q32 (rhFx h) } }

/-- `finish(results)`, R131: the results are already in `s`. -/
def finish (s : State) : Host.Outcome State Fault Refusal := .next (s.complete .success)

/-! ### Bus primitives and the transport -/

/-- Set `pend` to a request and wait, R132, R213, R214. The response of the transaction before is used
up. -/
def State.issue (r : Request) (s : State) : State := { s with pend := some r, resp := none }

/-- `BusWrite(bytes, stop)` up to its wait, R213. -/
def busWrite (bytes : List Byte) (stop : Bool) (s : State) : Host.Outcome State Fault Refusal :=
  .next (s.issue (busWriteReq bytes stop))

/-- `BusRead(n)` up to its wait, R214. -/
def busRead (n : Nat) (s : State) : Host.Outcome State Fault Refusal :=
  .next (s.issue (busReadReq n))

/-- The response an answer makes to a request, R213 and R214. -/
def responseTo : Request → Answer → Response
  | .write _ _ _, a => .writeDone a.status
  | .read _ _, a => .readDone a.status a.bytes

/-- The laws of R214 and R215: a successful read has exactly as many bytes as were asked for. -/
def lawfulAnswer : Request → Answer → Bool
  | .write _ _ _, _ => true
  | .read _ n, a => a.status != .success || a.bytes.length == n

/-- A response that answers a request, R213 to R215. -/
def answersRequest : Request → Response → Bool
  | .write _ _ _, .writeDone _ => true
  | .read _ n, .readDone st bytes => st != .success || bytes.length == n
  | .write _ _ _, .readDone _ _ => false
  | .read _ _, .writeDone _ => false

/-- The transport's step on an outstanding request, R133. -/
def State.respond (r : Request) (a : Answer) (s : State) : State :=
  { s with
    trace := s.trace ++ [(r, responseTo r a)]
    pend := none
    resp := some (responseTo r a)
    pc := s.pc + 1 }

/-- The transport agent's event: it answers the outstanding request, if there is one and the answer is
lawful. Otherwise its step is not enabled and nothing happens (R133, R136, R215). -/
def State.transportStep (a : Answer) (s : State) : State :=
  match s.pend with
  | some r => if lawfulAnswer r a then s.respond r a else s
  | none => s

/-! ### Command bodies (R17) -/

/-- `check(st)` on the response of a BusWrite, then the rest of the body. -/
def afterWrite (s : State) (rest : Host.Outcome State Fault Refusal) : Host.Outcome State Fault Refusal :=
  match s.resp with
  | some (.writeDone st) => if st = .success then rest else raiseStatus (transportStatus st) s
  | some (.readDone _ _) => .fault .offBody
  | none => .fault .offBody

/-- `check(st)` on the response of a BusRead(1), then the rest of the body with `bs[0]`. -/
def afterRead1 (s : State) (rest : Byte → Host.Outcome State Fault Refusal) : Host.Outcome State Fault Refusal :=
  match s.resp with
  | some (.readDone st bs) =>
    if st = .success then
      match bs with
      | [b0] => rest b0
      | _ => .fault .offBody
    else raiseStatus (transportStatus st) s
  | some (.writeDone _) => .fault .offBody
  | none => .fault .offBody

/-- `check(st)` on the response of a BusRead(2), then the rest of the body with `bs[0]` and `bs[1]`. -/
def afterRead2 (s : State) (rest : Byte → Byte → Host.Outcome State Fault Refusal) :
    Host.Outcome State Fault Refusal :=
  match s.resp with
  | some (.readDone st bs) =>
    if st = .success then
      match bs with
      | [b0, b1] => rest b0 b1
      | _ => .fault .offBody
    else raiseStatus (transportStatus st) s
  | some (.writeDone _) => .fault .offBody
  | none => .fault .offBody

/-- The body of a command that writes `cmd`, reads one byte, and finishes with `results` of it
(R420, R425, R455, R465). -/
def read1Body (cmd : List Byte) (results : Byte → State → State) (s : State) : Host.Outcome State Fault Refusal :=
  match s.pc with
  | 0 => busWrite cmd s.params.readStop s
  | 1 => afterWrite s (busRead 1 s)
  | 2 => afterRead1 s fun b0 => finish (results b0 s)
  | _ => .fault .offBody

/-- The body of a command that writes `cmd`, reads two bytes, and finishes with `results` of them
(R400, R405, R410). -/
def read2Body (cmd : List Byte) (results : Byte → Byte → State → State) (s : State) :
    Host.Outcome State Fault Refusal :=
  match s.pc with
  | 0 => busWrite cmd s.params.readStop s
  | 1 => afterWrite s (busRead 2 s)
  | 2 => afterRead2 s fun b0 b1 => finish (results b0 b1 s)
  | _ => .fault .offBody

/-- The body of a command that is one write, always with a stop, and finishes with RESULT.DATA16 = `d`
(R450, R460, R470). -/
def writeBody (bytes : List Byte) (d : Half) (s : State) : Host.Outcome State Fault Refusal :=
  match s.pc with
  | 0 => busWrite bytes true s
  | 1 => afterWrite s (finish (s.writeResult d 0#8))
  | _ => .fault .offBody

/-- The body of a read-modify-write after its validation, R500: read the byte with `rc`, keep it in tmp,
end with the status `refusal` gives it, if any, and else write `new` of it back with `wc` (R501 to
R503). -/
def rmwBody (rc wc : Byte) (refusal : Byte → Option Status) (new : Byte → Byte) (s : State) :
    Host.Outcome State Fault Refusal :=
  match s.pc with
  | 0 => busWrite [rc] s.params.readStop s
  | 1 => afterWrite s (busRead 1 s)
  | 2 => afterRead1 s fun b0 =>
    match refusal b0 with
    | some code => raiseStatus code { s with tmp := b0 }
    | none => busWrite [wc, new b0] true { s with tmp := b0 }
  | 3 => afterWrite s (finish (s.writeResult (zext16 (new s.tmp)) 0#8))
  | _ => .fault .offBody

/-- Validation of ARG at the start of a body, before any bus traffic (R500, R604). -/
def validated (illegal : Bool) (code : Status) (body : State → Host.Outcome State Fault Refusal) (s : State) :
    Host.Outcome State Fault Refusal :=
  if s.pc = 0 ∧ illegal = true then raiseStatus code s else body s

/-! ### The host's accesses -/

/-- The word index `off[6:2]` of a host access, R200. -/
def wordIndex (off : Offset) : Nat := (off.extractLsb' 2 5).toNat

/-- Replace the low word of a 64-bit register, R205. -/
def setLow (d : Dword) (v : Word) : Dword := d.extractLsb' 32 32 ++ v

/-- Replace the high word of a 64-bit register, R205. -/
def setHigh (d : Dword) (v : Word) : Dword := v ++ d.extractLsb' 0 32

/-- The word of a 64-bit register at its LO (`false`) or HI (`true`) offset, R205. -/
def halfWord (d : Dword) (hi : Bool) : Word := if hi then d.extractLsb' 32 32 else d.extractLsb' 0 32

/-- OUT[k], R106; no register has an index above 8. -/
def OutFile.get (o : OutFile) : Nat → Dword
  | 0 => o.cel
  | 1 => o.kel
  | 2 => o.fah
  | 3 => o.ran
  | 4 => o.new
  | 5 => o.del
  | 6 => o.rea
  | 7 => o.rom
  | 8 => o.rh
  | _ => 0#64

/-- `MemRead(off, 4)`, R101 to R107 and R200: the word of the register at `off[6:2]`. It has no side
effect (R202). OUT[k] has its words at indexes 8 + 2k and 9 + 2k; unmapped words read 0. -/
def State.memRead (off : Offset) (s : State) : Word :=
  match wordIndex off with
  | 0 => 0#32
  | 1 => s.statWord
  | 2 => s.opndRaw.setWidth 32
  | 3 => 0#8 ++ s.dclass ++ s.data16
  | 4 => halfWord s.celinReg false
  | 5 => halfWord s.celinReg true
  | 6 => 0#32
  | 7 => 0#32
  | k + 8 => halfWord (s.out.get (k / 2)) (decide (k % 2 = 1))

/-- A write to CMD: accept when the block is not busy (R130), overrun when it is (R134). -/
def State.writeCmd (v : Word) (s : State) : State := if s.busy then s.setOvr else s.accept v

/-- `MemWrite(off, 4, v)`, R203: an effect at CMD, STAT, OPND, CELIN_LO and CELIN_HI, and none at any
other offset. -/
def State.memWrite (off : Offset) (v : Word) (s : State) : State :=
  match wordIndex off with
  | 0 => s.writeCmd v
  | 1 => s.writeStat v
  | 2 => { s with opndRaw := v.extractLsb' 0 16 }
  | 4 => { s with celinReg := setLow s.celinReg v }
  | 5 => { s with celinReg := setHigh s.celinReg v }
  | _ => s

/-- The host's read event: the word read goes to the host, which the observation `reads` records. -/
def State.hostRead (off : Offset) (s : State) : State :=
  { s with reads := s.reads ++ [(off, s.memRead off)] }

/-! ### Block reset -/

/-- Block reset, R700 to R702: every piece of the block's state takes the value of R140; a running
command is abandoned; no bus transaction is issued. The parameters are fixed, TRACE is not cleared
(R125), and the agents outside the block are not reset. -/
def State.blockReset (s : State) : State :=
  { State.resetWith s.params with
    trace := s.trace
    reads := s.reads
    prog := s.prog
    inputs := s.inputs
    draws := s.draws }

/-! ### The next event -/

/-- Take the next event: the first listed one, or else one drawn from the free value. -/
def State.nextEvent (s : State) : Event × State :=
  match s.inputs with
  | e :: rest => (e, { s with inputs := rest })
  | [] => (Config.freeEvent s.draws, { s with draws := s.draws + 1 })

end Sys2Proof.Machine
end

