-- ==== Sys2Proof/Machine/Conversion.lean ====
section
/-! DEFINITION. Conversion commands (43_conversion.md R560, R565, R570). They issue no bus transaction,
always succeed, and leave RESULT unchanged. -/

namespace Sys2Proof.Machine

/-- CVT_T, R560: the latched OPND, unsigned. -/
def execCvtT (s : State) : Host.Outcome State Fault Refusal :=
  finish (s.writeTemps (celsiusFx s.opnd.toNat))

/-- CVT_RH, R565. -/
def execCvtRh (s : State) : Host.Outcome State Fault Refusal :=
  finish (s.writeRh s.opnd.toNat)

/-- CVT_C, R570: the latched CELIN, signed. -/
def execCvtC (s : State) : Host.Outcome State Fault Refusal :=
  finish (s.writeTemps (s64 s.celin.toNat))

end Sys2Proof.Machine
end

