-- ==== Sys2Proof/Machine/Measure.lean ====
section
/-! DEFINITION. Measurement and identity commands (40_measure_and_identity.md). Each definition is one
sequencer step of its command (10_state.md R132). -/

namespace Sys2Proof.Machine

/-- MEAS_RH, R400. -/
def execMeasRh (s : State) : Host.Outcome State Fault Refusal :=
  read2Body [cmdMeasureHumidity]
    (fun b0 b1 t => (t.writeResult (bigEndian b0 b1) 0#8).writeRh (bigEndian b0 b1).toNat) s

/-- MEAS_T, R405. -/
def execMeasT (s : State) : Host.Outcome State Fault Refusal :=
  read2Body [cmdMeasureTemperature]
    (fun b0 b1 t => (t.writeResult (bigEndian b0 b1) 0#8).writeTemps (celsiusFx (bigEndian b0 b1).toNat)) s

/-- READ_SERIAL, R410. -/
def execReadSerial (s : State) : Host.Outcome State Fault Refusal :=
  read2Body cmdReadSerial (fun b0 b1 t => t.writeResult (bigEndian b0 b1) 0#8) s

/-- READ_DEVID, R420: decoding never fails. -/
def execReadDevid (s : State) : Host.Outcome State Fault Refusal :=
  read1Body cmdReadDeviceId (fun b0 t => t.writeResult (zext16 b0) (devidClass t.params b0)) s

/-- READ_FW, R425: decoding never fails. -/
def execReadFw (s : State) : Host.Outcome State Fault Refusal :=
  read1Body cmdReadFirmware (fun b0 t => t.writeResult (zext16 b0) (fwClass t.params b0)) s

end Sys2Proof.Machine
end

