-- ==== Sys2Proof/Machine/Primitive.lean ====
section
/-! DEFINITION. Soft reset and the single-byte register primitives (41_reset_and_primitives.md). -/

namespace Sys2Proof.Machine

/-- SOFT_RESET, R450. The block's own state is unchanged apart from completion and RESULT; what it does
to the chip is outside the block (R704). -/
def execSoftReset (s : State) : Host.Outcome State Fault Refusal :=
  writeBody [cmdReset] 0#16 s

/-- READ_USER, R455. -/
def execReadUser (s : State) : Host.Outcome State Fault Refusal :=
  read1Body [cmdReadUser] (fun b0 t => t.writeResult (zext16 b0) 0#8) s

/-- WRITE_USER, R460: every byte is written as given. -/
def execWriteUser (arg : Byte) (s : State) : Host.Outcome State Fault Refusal :=
  writeBody [cmdWriteUser, arg] (zext16 arg) s

/-- READ_HTR, R465. -/
def execReadHtr (s : State) : Host.Outcome State Fault Refusal :=
  read1Body [cmdReadHeater] (fun b0 t => t.writeResult (zext16 b0) 0#8) s

/-- WRITE_HTR, R470: all eight bits are written as given. -/
def execWriteHtr (arg : Byte) (s : State) : Host.Outcome State Fault Refusal :=
  writeBody [cmdWriteHeater, arg] (zext16 arg) s

end Sys2Proof.Machine
end

