-- ==== Sys2Proof/Machine/Rmw.lean ====
section
/-! DEFINITION. Read-modify-write commands (42_read_modify_write.md). -/

namespace Sys2Proof.Machine

/-- HEATER_ON, R505: VOLTAGE_TOO_LOW, with no write, when bit 6 of the byte read is 1. -/
def execHeaterOn (s : State) : Host.Outcome State Fault Refusal :=
  rmwBody cmdReadUser cmdWriteUser (fun b => if voltageLow b then some .voltageTooLow else none) heaterOnByte s

/-- HEATER_OFF, R510: bit 6 is not tested. -/
def execHeaterOff (s : State) : Host.Outcome State Fault Refusal :=
  rmwBody cmdReadUser cmdWriteUser (fun _ => none) heaterOffByte s

/-- SET_HLVL, R515. -/
def execSetHlvl (arg : Byte) (s : State) : Host.Outcome State Fault Refusal :=
  validated (levelIllegal arg) .levelOutOfRange
    (rmwBody cmdReadHeater cmdWriteHeater (fun _ => none) (levelByte arg)) s

/-- SET_RES, R520. -/
def execSetRes (arg : Byte) (s : State) : Host.Outcome State Fault Refusal :=
  validated (resolutionIllegal arg) .invalidResolution
    (rmwBody (resReadCommand s.params) (resWriteCommand s.params) (fun _ => none) (resolutionByte s.params arg)) s

end Sys2Proof.Machine
end

