-- ==== Sys2Proof/Machine/Dispatch.lean ====
section
/-! DEFINITION. One sequencer step of a command (10_state.md R132): one arm per constructor of Instr. -/

namespace Sys2Proof.Machine

def exec (i : Instr) (s : State) : Host.Outcome State Fault Refusal :=
  match i with
  -- 40_measure_and_identity.md
  | .measRh => Sys2Proof.Machine.execMeasRh s
  | .measT => Sys2Proof.Machine.execMeasT s
  | .readSerial => Sys2Proof.Machine.execReadSerial s
  | .readDevid => Sys2Proof.Machine.execReadDevid s
  | .readFw => Sys2Proof.Machine.execReadFw s
  -- 41_reset_and_primitives.md
  | .softReset => Sys2Proof.Machine.execSoftReset s
  | .readUser => Sys2Proof.Machine.execReadUser s
  | .writeUser arg => Sys2Proof.Machine.execWriteUser arg s
  | .readHtr => Sys2Proof.Machine.execReadHtr s
  | .writeHtr arg => Sys2Proof.Machine.execWriteHtr arg s
  -- 42_read_modify_write.md
  | .heaterOn => Sys2Proof.Machine.execHeaterOn s
  | .heaterOff => Sys2Proof.Machine.execHeaterOff s
  | .setHlvl arg => Sys2Proof.Machine.execSetHlvl arg s
  | .setRes arg => Sys2Proof.Machine.execSetRes arg s
  -- 43_conversion.md
  | .cvtT => Sys2Proof.Machine.execCvtT s
  | .cvtRh => Sys2Proof.Machine.execCvtRh s
  | .cvtC => Sys2Proof.Machine.execCvtC s

end Sys2Proof.Machine
end

