-- ==== Sys2Proof/Machine/HostProgram.lean ====
section
/-! DEFINITION. The host agent's program syntax as accesses of the register space (30_encoding.md R310,
R311) and the source's operations as programs (R320). -/

namespace Sys2Proof.Machine

/-- The command word of an assembler command, R310. -/
def AsmCommand.word : AsmCommand → Word
  | .plain i => encode i
  | .setRes rh t => encode (.setRes (BitVec.ofNat 8 (rh.toNat * 2 + t.toNat)))
  | .hash i arg => commandWord i.opcode arg

/-- The offset of a host-visible register, R101 to R106. -/
def HostReg.offset : HostReg → Offset
  | .cmd => 0x00#7
  | .stat => 0x04#7
  | .opnd => 0x08#7
  | .result => 0x0C#7
  | .celinLo => 0x10#7
  | .celinHi => 0x14#7
  | .outLo k => BitVec.ofNat 7 (0x20 + 8 * k.val)
  | .outHi k => BitVec.ofNat 7 (0x24 + 8 * k.val)

/-- One access of the host's program, R311. WAIT reads STAT and is left only when BUSY (bit 0) is 0; the
other statements are one access each. A host whose program is over makes no access. -/
def State.hostProgramStep (s : State) : State :=
  match s.prog with
  | [] => s
  | .cmd c :: rest => { (s.memWrite (HostReg.offset .cmd) c.word) with prog := rest }
  | .wr r v :: rest => { (s.memWrite r.offset v) with prog := rest }
  | .rd r :: rest => { (s.hostRead r.offset) with prog := rest }
  | .wait :: rest =>
    { (s.hostRead (HostReg.offset .stat)) with
      prog := if (s.memRead (HostReg.offset .stat)).getLsbD 0 then .wait :: rest else rest }

/-- The operations of the source's public surface and primitive API, R320. -/
inductive SourceOp where
  | reset
  | enableHeater
  | disableHeater
  | setHeaterLevel (level : Byte)
  | setResolution (rhBit tempBit : Bool)
  | getRelativeHumidity
  | getCelsius
  | getKelvin
  | getFahrenheit
  | getRankine
  | getNewton
  | getDelisle
  | getReaumur
  | getRomer
  | getSerial
  | getDeviceId
  | getFirmwareVersion
  | measureRawTemperature
  | measureRawHumidity
  | readUserConfig
  | readHeaterControl
  | writeUserConfig (b : Byte)
  | writeHeaterControl (b : Byte)
  deriving DecidableEq, Repr

/-- `CMD <command>; WAIT`. -/
def runCommand (i : Instr) : List HostStmt := [.cmd (.plain i), .wait]

/-- `CMD <command>; WAIT; RD OUT_k_LO; RD OUT_k_HI`. -/
def runAndReadOut (i : Instr) (k : Fin 9) : List HostStmt := runCommand i ++ [.rd (.outLo k), .rd (.outHi k)]

/-- `CMD <command>; WAIT; RD RESULT`. -/
def runAndReadResult (i : Instr) : List HostStmt := runCommand i ++ [.rd .result]

/-- The expansion of a source operation, R320. -/
def SourceOp.expand : SourceOp → List HostStmt
  | .reset => runCommand .softReset
  | .enableHeater => runCommand .heaterOn
  | .disableHeater => runCommand .heaterOff
  | .setHeaterLevel level => runCommand (.setHlvl level)
  | .setResolution r t => [.cmd (.setRes r t), .wait]
  | .getRelativeHumidity => runAndReadOut .measRh 8
  | .getCelsius => runAndReadOut .measT 0
  | .getKelvin => runAndReadOut .measT 1
  | .getFahrenheit => runAndReadOut .measT 2
  | .getRankine => runAndReadOut .measT 3
  | .getNewton => runAndReadOut .measT 4
  | .getDelisle => runAndReadOut .measT 5
  | .getReaumur => runAndReadOut .measT 6
  | .getRomer => runAndReadOut .measT 7
  | .getSerial => runAndReadResult .readSerial
  | .getDeviceId => runAndReadResult .readDevid
  | .getFirmwareVersion => runAndReadResult .readFw
  | .measureRawTemperature => runAndReadResult .measT
  | .measureRawHumidity => runAndReadResult .measRh
  | .readUserConfig => runAndReadResult .readUser
  | .readHeaterControl => runAndReadResult .readHtr
  | .writeUserConfig b => runCommand (.writeUser b)
  | .writeHeaterControl b => runCommand (.writeHtr b)

/-- The result an operation leaves for the host, R320, widened with zeros: the status code of an
operation that has only a status, and otherwise the value, if VALID says there is one. -/
def SourceOp.result (o : SourceOp) (s : State) : Option Dword :=
  let ifValid (v : Dword) : Option Dword := if s.valid then some v else none
  match o with
  | .reset | .enableHeater | .disableHeater | .setHeaterLevel _ | .setResolution _ _ =>
    some (s.status.code.setWidth 64)
  | .writeUserConfig _ | .writeHeaterControl _ => some (s.status.code.setWidth 64)
  | .getRelativeHumidity => ifValid s.out.rh
  | .getCelsius => ifValid s.out.cel
  | .getKelvin => ifValid s.out.kel
  | .getFahrenheit => ifValid s.out.fah
  | .getRankine => ifValid s.out.ran
  | .getNewton => ifValid s.out.new
  | .getDelisle => ifValid s.out.del
  | .getReaumur => ifValid s.out.rea
  | .getRomer => ifValid s.out.rom
  | .getSerial | .measureRawTemperature | .measureRawHumidity => ifValid (s.data16.setWidth 64)
  | .getDeviceId | .getFirmwareVersion => ifValid ((s.dclass ++ s.data16).setWidth 64)
  | .readUserConfig | .readHeaterControl => ifValid ((s.data16.extractLsb' 0 8).setWidth 64)

end Sys2Proof.Machine
end

