-- ==== Sys2Proof/Machine/Agents.lean ====
section
/-! DEFINITION. One step of each agent (10_state.md R132 to R136; 70_reset_and_hazards.md R700, R701).
An agent whose step is not enabled does nothing (log entry 10). -/

namespace Sys2Proof.Machine

/-- When the sequencer may step, R132. -/
def State.sequencerEnabled (s : State) : Bool := s.phase == .run && s.pend == none

/-- The running command goes on from where it stopped, R132. An unassigned opcode ends it with
ILLEGAL_OPCODE (30_encoding.md R303, 60_exceptions.md R604). -/
def runLatched (s : State) : Host.Outcome State Fault Refusal :=
  match decodeCommand s.op s.arg with
  | .ok i => exec i s
  | .error (.unassigned _) => raiseStatus .illegalOpcode s

/-- The sequencer's event, R132. -/
def sequencerStep (s : State) : Host.Outcome State Fault Refusal :=
  if s.sequencerEnabled then runLatched s else .next s

/-- What an event does, R136. A late answer to a request that a reset abandoned has no effect on the
state and is not recorded in TRACE (R701). -/
def eventStep (e : Event) (s : State) : Host.Outcome State Fault Refusal :=
  match e with
  | .hostRead off => .next (s.hostRead off)
  | .hostWrite off v => .next (s.memWrite off v)
  | .hostProgram => .next s.hostProgramStep
  | .sequencer => sequencerStep s
  | .transport a => .next (s.transportStep a)
  | .lateAnswer _ => .next s
  | .blockReset => .next s.blockReset

end Sys2Proof.Machine
end

