-- ==== Sys2Proof/Machine/Step.lean ====
section
/-! DEFINITION. One step of the machine: the next event happens (10_state.md R136, R207). -/

namespace Sys2Proof.Machine

/-- One step: take the next event and do what it does. -/
def step (s : State) : Host.Outcome State Fault Refusal := eventStep s.nextEvent.1 s.nextEvent.2

/-- The state in which the command word of a row of the opcode table has just been accepted (R130) and
the sequencer moves next, so that the very next step runs that command (log entry 6). -/
def State.withFetchWord (s : State) (nbits w : Nat) : State :=
  { (s.accept (tableWord nbits w)) with inputs := .sequencer :: s.inputs }

end Sys2Proof.Machine
end

