-- ==== Sys2Proof/Safety.lean ====
section
/-! DEFINITION. What counts as a legal state and as a safe step, in the terms the statements use. -/

namespace Sys2Proof.Machine

/-- Command `i` is running: it is the latched command and the phase is RUN (10_state.md R120, R130). -/
def State.Runs (s : State) (i : Instr) : Prop :=
  s.phase = .run ∧ decodeCommand s.op s.arg = .ok i

/-- The machine goes on: the step ends in a next state, neither in a fault nor in a refusal. -/
def State.Safe (s : State) : Prop := ∃ t, step s = .next t

/-- What a running command with an outstanding request looks like: the request is the entry of the
transaction table of 30_encoding.md R307 at the step index, and no response is left over. -/
def State.Waiting (s : State) (r : Request) : Prop :=
  s.resp = none ∧ ∃ i, decodeCommand s.op s.arg = .ok i ∧ transaction s.params s.tmp i s.pc = some r

/-- What a running command with no outstanding request looks like: it is at its start, or it holds a
response to its last transaction. -/
def State.Resuming (s : State) : Prop :=
  (s.pc = 0 ∧ s.resp = none) ∨
  ∃ i k r a, decodeCommand s.op s.arg = .ok i ∧ s.pc = k + 1 ∧
    transaction s.params s.tmp i k = some r ∧ s.resp = some a ∧ answersRequest r a = true

/-- The invariant: what is true of the block at reset and stays true at every step. -/
structure State.Inv (s : State) : Prop where
  /-- The build parameters are a choice of 00_scope.md R8 to R11. -/
  params_ok : s.params.wellFormed = true
  /-- BUSY shows phase = RUN (10_state.md R124). -/
  busy_run : s.busy = true ↔ s.phase = .run
  /-- VALID: the last command ended with SUCCESS and no command is running (R102). -/
  valid_done : s.valid = true → s.phase = .idle ∧ s.status = .success
  /-- LAST_OP is the opcode last latched (R130). -/
  lastOp_op : s.lastOp = s.op
  /-- The step index is at most 3 (R121). -/
  pc_le : s.pc ≤ 3
  /-- An idle block has no outstanding request and no response to use (R120, R131). -/
  idle_quiet : s.phase = .idle → s.pend = none ∧ s.resp = none
  /-- An outstanding request is the running command's own (R132, R307). -/
  waiting : s.phase = .run → ∀ r, s.pend = some r → s.Waiting r
  /-- A command that is not waiting can go on (R132, R133). -/
  resuming : s.phase = .run → s.pend = none → s.Resuming
  /-- Every recorded request carries the one bus address and has a lawful response (R210, R213 to R215). -/
  trace_ok : ∀ e ∈ s.trace, e.1.addr = Config.busAddr ∧ answersRequest e.1 e.2 = true

end Sys2Proof.Machine
end

