-- ==== Sys2Proof/Certificates/Slice0/Obligations.lean ====
section
/-! DEFINITION. The statements for the provers, from the numbered rules of spec/. The helper definitions at
the top spell out, field by field and without the model's operations, what a step of a command leaves. -/

namespace Sys2Proof.Statements

open Sys2Proof.Machine

/-- The outcome type of a step. -/
abbrev Out := Host.Outcome State Fault Refusal

/-- The state after a command has asked the transport for something (10_state.md R132). -/
def asked (s : State) (r : Request) : State := { s with pend := some r, resp := none }

/-- The state after a command ended with an error (60_exceptions.md R610): no result is written. -/
def failed (s : State) (code : Status) : State :=
  { s with status := code, valid := false, busy := false, phase := .idle, pend := none, resp := none }

/-- The state after a command ended with SUCCESS (10_state.md R131), results already written. -/
def succeeded (s : State) : State :=
  { s with status := .success, valid := true, busy := false, phase := .idle, pend := none, resp := none }

/-- `s` with RESULT written (10_state.md R104). -/
def withResult (s : State) (d : Half) (c : Byte) : State := { s with data16 := d, dclass := c }

/-- `s` with the eight temperature outputs of the Celsius value `c`; OUT_RH is kept. -/
def withTemps (s : State) (c : Int) : State :=
  { s with out :=
    { cel := BitVec.ofInt 64 c, kel := BitVec.ofInt 64 (scaleFx .kel c), fah := BitVec.ofInt 64 (scaleFx .fah c),
      ran := BitVec.ofInt 64 (scaleFx .ran c), new := BitVec.ofInt 64 (scaleFx .new c),
      del := BitVec.ofInt 64 (scaleFx .del c), rea := BitVec.ofInt 64 (scaleFx .rea c),
      rom := BitVec.ofInt 64 (scaleFx .rom c), rh := s.out.rh } }

/-- `s` with OUT_RH of the raw code `h`; the temperature outputs are kept. -/
def withRh (s : State) (h : Nat) : State := { s with out := { s.out with rh := BitVec.ofInt 64 (rhFx h) } }

/-- The pair of clauses of `check(st)` on a write (00_scope.md R17): a command at step index `pc` whose
last write was answered `st` fails with that status, verbatim, unless it is SUCCESS. -/
def writeCheck (i : Instr) (pc : Nat) : Prop :=
  ∀ (s : State) (st : BusStatus), s.pc = pc → s.resp = some (.writeDone st) → st ≠ .success →
    exec i s = .next (failed s (transportStatus st))

/-- The same for a read; the bytes of a failed read are arbitrary and unused (20_memory.md R214). -/
def readCheck (i : Instr) (pc : Nat) : Prop :=
  ∀ (s : State) (st : BusStatus) (bs : List Byte), s.pc = pc → s.resp = some (.readDone st bs) → st ≠ .success →
    exec i s = .next (failed s (transportStatus st))

/-- The start of a body: it asks for the command write `cmd`. -/
def startsWith (i : Instr) (s : State) (cmd : List Byte) (stop : Bool) : Prop :=
  s.pc = 0 → exec i s = .next (asked s (.write 0x40#7 cmd stop))

/-- After a successful command write the body asks for `n` bytes. -/
def thenReads (i : Instr) (s : State) (n : Nat) : Prop :=
  s.pc = 1 → s.resp = some (.writeDone .success) → exec i s = .next (asked s (.read 0x40#7 n))

/-- A whole two-transaction command that reads one byte and finishes with RESULT = (zext byte, cls byte). -/
def oneByteRead (i : Instr) (cmd : List Byte) (cls : Params → Byte → Byte) : Prop :=
  (∀ s : State, startsWith i s cmd s.params.readStop ∧ thenReads i s 1 ∧
    ∀ b : Byte, s.pc = 2 → s.resp = some (.readDone .success [b]) →
      exec i s = .next (succeeded (withResult s (b.setWidth 16) (cls s.params b)))) ∧
  writeCheck i 1 ∧ readCheck i 2

/-- A whole two-transaction command that reads two bytes and finishes with RESULT = (b0 ++ b1, 0) and
what `more` writes of the raw code. -/
def twoByteRead (i : Instr) (cmd : List Byte) (more : State → Nat → State) : Prop :=
  (∀ s : State, startsWith i s cmd s.params.readStop ∧ thenReads i s 2 ∧
    ∀ b0 b1 : Byte, s.pc = 2 → s.resp = some (.readDone .success [b0, b1]) →
      exec i s = .next (succeeded (more (withResult s (b0 ++ b1) 0#8) (b0.toNat * 256 + b1.toNat)))) ∧
  writeCheck i 1 ∧ readCheck i 2

/-- A whole command of one write that always sends a stop and finishes with RESULT = (d, 0). -/
def oneWrite (i : Instr) (bytes : List Byte) (d : Half) : Prop :=
  (∀ s : State, startsWith i s bytes true ∧
    (s.pc = 1 → s.resp = some (.writeDone .success) → exec i s = .next (succeeded (withResult s d 0#8)))) ∧
  writeCheck i 1

/-- The read half of a read-modify-write (42_read_modify_write.md R500) with its checks, and the check of
its write half. -/
def rmwChecks (i : Instr) : Prop := writeCheck i 1 ∧ readCheck i 2 ∧ writeCheck i 3

/-- A byte read that is written back: at step index 2 with the byte `b` the command keeps `b` in tmp and
asks for the write of `[wc, new]`; at step index 3, with the byte read in tmp, it finishes with
DATA16 = zext new. -/
def writesBack (i : Instr) (s : State) (b wc new : Byte) : Prop :=
  (s.pc = 2 → s.resp = some (.readDone .success [b]) →
    exec i s = .next (asked { s with tmp := b } (.write 0x40#7 [wc, new] true))) ∧
  (s.pc = 3 → s.resp = some (.writeDone .success) → s.tmp = b →
    exec i s = .next (succeeded (withResult s (new.setWidth 16) 0#8)))

/-- The word that the next statement of a host program writes to register `r` (CMD or STAT), if it does. -/
def programWord (r : HostReg) : List HostStmt → Option Word
  | .cmd c :: _ => if r = .cmd then some c.word else none
  | .wr q v :: _ => if q = r then some v else none
  | .rd _ :: _ => none
  | .wait :: _ => none
  | [] => none

/-- The word that an event writes to CMD, if it does: a raw host write to word 0, or the next statement of
the host's program. -/
def cmdWord (s : State) : Event → Option Word
  | .hostWrite off v => if off.toNat / 4 = 0 then some v else none
  | .hostProgram => programWord .cmd s.prog
  | .hostRead _ => none
  | .sequencer => none
  | .transport _ => none
  | .lateAnswer _ => none
  | .blockReset => none

/-- The word that an event writes to STAT, if it does. -/
def statWrite (s : State) : Event → Option Word
  | .hostWrite off v => if off.toNat / 4 = 1 then some v else none
  | .hostProgram => programWord .stat s.prog
  | .hostRead _ => none
  | .sequencer => none
  | .transport _ => none
  | .lateAnswer _ => none
  | .blockReset => none

/-- The source's formulas of 43_conversion.md R552, over the rationals. -/
def sourceFormula : Scale → ℚ → ℚ
  | .cel, c => c
  | .kel, c => c + 27315 / 100
  | .fah, c => c * 9 / 5 + 32
  | .ran, c => (c + 27315 / 100) * 9 / 5
  | .new, c => c * (33 / 100)
  | .del, c => (100 - c) * 3 / 2
  | .rea, c => c * (8 / 10)
  | .rom, c => c * 21 / 40 + 75 / 10

/-- The Celsius formula of 43_conversion.md R550, over the rationals. -/
def celsiusFormula (t : Nat) : ℚ := 17572 / 100 * t / 65536 - 4685 / 100

/-- Change the state of an outcome. -/
def mapNext (f : State → State) : Out → Out
  | .next s => .next (f s)
  | .fault r => .fault r
  | .refused r => .refused r

/-- `s` with other values in everything a running command must not depend on: the host's OPND, CELIN and
OVR, the observations, and the agents outside the block. -/
def repaint (s : State) (p : State) : State :=
  { s with
    opndRaw := p.opndRaw, celinReg := p.celinReg, ovr := p.ovr, lastOp := p.lastOp, trace := p.trace,
    reads := p.reads, prog := p.prog, inputs := p.inputs, draws := p.draws }

/-- The four read-modify-write commands, with an argument that passes validation. -/
def legalRmw : Instr → Bool
  | .heaterOn => true
  | .heaterOff => true
  | .setHlvl arg => decide (arg.toNat ≤ 15)
  | .setRes arg => decide (arg.toNat ≤ 3)
  | _ => false

/-- How many bytes the command reads from the chip, if it is one of the seven two-transaction reads. -/
def readLength : Instr → Option Nat
  | .measRh | .measT | .readSerial => some 2
  | .readDevid | .readFw | .readUser | .readHtr => some 1
  | _ => none

/-- The DATA16 that the bytes of a successful read give. -/
def dataOf : List Byte → Half
  | [b] => b.setWidth 16
  | [b0, b1] => b0 ++ b1
  | _ => 0#16

/-- Bits `k` of the byte that a read-modify-write may change, and what it puts there:
`some v` for a target bit with value `v`, `none` for a bit to be preserved (R505, R510, R515, R520). -/
def targetBit (p : Params) : Instr → Nat → Option Bool
  | .heaterOn, k => if k = 2 then some true else none
  | .heaterOff, k => if k = 2 then some false else none
  | .setHlvl arg, k => if k < 4 then some (arg.getLsbD k) else none
  | .setRes arg, k =>
    if k = p.resHiBit.val then some (arg.getLsbD 1)
    else if k = p.resLoBit.val then some (arg.getLsbD 0) else none
  | _, _ => none

end Sys2Proof.Statements

open Sys2Proof Sys2Proof.Machine Sys2Proof.Statements

/-! ### Reset, accept and the host's accesses -/

/-- R140: every piece of state holds its reset value. -/
def Obligations.ResetHoldsTheResetValues : Prop :=
  State.reset.busy = false ∧ State.reset.valid = false ∧ State.reset.ovr = false ∧
  State.reset.status.code = 0x00#8 ∧ State.reset.lastOp = 0x00#8 ∧ State.reset.opndRaw = 0x0000#16 ∧
  State.reset.data16 = 0x0000#16 ∧ State.reset.dclass = 0x00#8 ∧ State.reset.celinReg = 0#64 ∧
  (∀ k < 9, State.reset.out.get k = 0#64) ∧
  State.reset.phase = .idle ∧ State.reset.pc = 0 ∧ State.reset.pend = none ∧
  State.reset.op = 0#8 ∧ State.reset.arg = 0#8 ∧ State.reset.opnd = 0#16 ∧ State.reset.celin = 0#64 ∧
  State.reset.tmp = 0#8

/-- R700, R701, R702: block reset, at any moment, puts the reset values everywhere in the block, abandons
the running command without completing it, asks nothing of the bus and records nothing. The parameters
(D27), TRACE (R125) and the agents outside the block are kept. -/
def Obligations.BlockResetAbandonsAndClears : Prop :=
  ∀ (s : State) (rest : List Event), s.inputs = .blockReset :: rest →
    step s = .next
      { params := s.params, busy := false, valid := false, ovr := false, status := .success, lastOp := 0#8,
        opndRaw := 0#16, data16 := 0#16, dclass := 0#8, celinReg := 0#64, out := ⟨0, 0, 0, 0, 0, 0, 0, 0, 0⟩,
        phase := .idle, op := 0#8, arg := 0#8, opnd := 0#16, celin := 0#64, pc := 0, tmp := 0#8,
        pend := none, resp := none, trace := s.trace, reads := s.reads, prog := s.prog, inputs := rest,
        draws := s.draws }

/-- R130: a host write to CMD (its low offset bits do not count) while BUSY = 0 is accepted, with every
OP value, and changes exactly what the rule lists. -/
def Obligations.AcceptLatchesTheCommand : Prop :=
  ∀ (s : State) (off : Offset) (v : Word) (rest : List Event),
    s.busy = false → off.toNat / 4 = 0 → s.inputs = .hostWrite off v :: rest →
    step s = .next
      { s with
        inputs := rest, op := v.extractLsb' 0 8, arg := v.extractLsb' 8 8, opnd := s.opndRaw,
        celin := s.celinReg, pc := 0, tmp := 0#8, pend := none, resp := none, phase := .run, busy := true,
        valid := false, lastOp := v.extractLsb' 0 8 }

/-- R134: a host write to CMD while BUSY = 1 changes nothing but OVR. -/
def Obligations.OverrunSetsOnlyOvr : Prop :=
  ∀ (s : State) (off : Offset) (v : Word) (rest : List Event),
    s.busy = true → off.toNat / 4 = 0 → s.inputs = .hostWrite off v :: rest →
    step s = .next { s with inputs := rest, ovr := true }

/-- R135: a host write to STAT clears OVR when bit 2 is 1 and changes nothing else; writes to OPND and
CELIN store their writable bits at any time and change nothing else, so not the running command. R203: a
write anywhere else is ignored. The index of the word is `off / 4`. -/
def Obligations.HostWritesActOnlyWhereTheyMay : Prop :=
  ∀ (s : State) (off : Offset) (v : Word) (rest : List Event), s.inputs = .hostWrite off v :: rest →
    (off.toNat / 4 = 1 → v.getLsbD 2 = true → step s = .next { s with inputs := rest, ovr := false }) ∧
    (off.toNat / 4 = 1 → v.getLsbD 2 = false → step s = .next { s with inputs := rest }) ∧
    (off.toNat / 4 = 2 → step s = .next { s with inputs := rest, opndRaw := v.extractLsb' 0 16 }) ∧
    (off.toNat / 4 = 4 → step s = .next { s with inputs := rest, celinReg := s.celinReg.extractLsb' 32 32 ++ v }) ∧
    (off.toNat / 4 = 5 → step s = .next { s with inputs := rest, celinReg := v ++ s.celinReg.extractLsb' 0 32 }) ∧
    (off.toNat / 4 = 3 ∨ 6 ≤ off.toNat / 4 → step s = .next { s with inputs := rest })

/-- R101 to R107, R200, R205: the word that a host read returns, as a number, at every offset. -/
def Obligations.HostReadsFollowTheRegisterMap : Prop :=
  ∀ (s : State) (off : Offset),
    (off.toNat / 4 = 0 → s.memRead off = 0#32) ∧
    (off.toNat / 4 = 1 → (s.memRead off).toNat =
      s.busy.toNat + 2 * s.valid.toNat + 4 * s.ovr.toNat + 256 * s.status.code.toNat + 65536 * s.lastOp.toNat) ∧
    (off.toNat / 4 = 2 → (s.memRead off).toNat = s.opndRaw.toNat) ∧
    (off.toNat / 4 = 3 → (s.memRead off).toNat = s.data16.toNat + 65536 * s.dclass.toNat) ∧
    (off.toNat / 4 = 4 → (s.memRead off).toNat = s.celinReg.toNat % 2 ^ 32) ∧
    (off.toNat / 4 = 5 → (s.memRead off).toNat = s.celinReg.toNat / 2 ^ 32) ∧
    (∀ k (h : k < 9),
      (off.toNat / 4 = 8 + 2 * k → (s.memRead off).toNat =
        ([s.out.cel, s.out.kel, s.out.fah, s.out.ran, s.out.new, s.out.del, s.out.rea, s.out.rom, s.out.rh][k]).toNat
          % 2 ^ 32) ∧
      (off.toNat / 4 = 9 + 2 * k → (s.memRead off).toNat =
        ([s.out.cel, s.out.kel, s.out.fah, s.out.ran, s.out.new, s.out.del, s.out.rea, s.out.rom, s.out.rh][k]).toNat
          / 2 ^ 32)) ∧
    (off.toNat / 4 = 6 ∨ off.toNat / 4 = 7 ∨ 26 ≤ off.toNat / 4 → s.memRead off = 0#32)

/-- R202: a host read has no side effect on any register; the model records the word read (log entry 7),
and reading again gives the same word. -/
def Obligations.HostReadsHaveNoSideEffect : Prop :=
  ∀ (s : State) (off : Offset) (rest : List Event), s.inputs = .hostRead off :: rest →
    step s = .next { s with inputs := rest, reads := s.reads ++ [(off, s.memRead off)] } ∧
    ∀ t, step s = .next t → ∀ off', t.memRead off' = s.memRead off'

/-- R205, R103, R105: a word written to OPND or to a half of CELIN reads back (OPND its low 16 bits), and
every other word of the register space reads as before. -/
def Obligations.OperandWordsReadBack : Prop :=
  ∀ (s : State) (off off' : Offset) (v : Word),
    off.toNat / 4 = 2 ∨ off.toNat / 4 = 4 ∨ off.toNat / 4 = 5 →
    (off'.toNat / 4 ≠ off.toNat / 4 → (s.memWrite off v).memRead off' = s.memRead off') ∧
    (off'.toNat / 4 = off.toNat / 4 → off.toNat / 4 = 2 →
      ((s.memWrite off v).memRead off').toNat = v.toNat % 2 ^ 16) ∧
    (off'.toNat / 4 = off.toNat / 4 → off.toNat / 4 ≠ 2 → (s.memWrite off v).memRead off' = v)

/-- R311: each statement of a host's program is the access the rule names, at the offset of its register, and
the program moves on to its next statement; WAIT reads STAT, and moves on only when BUSY is 0. A program that
is over makes no access (log entry 8). -/
def Obligations.HostProgramsAreHostAccesses : Prop :=
  (∀ (s : State) (l : List Event) (rest : List HostStmt), s.inputs = .hostProgram :: l →
    let next (p : List HostStmt) (e : Event) : State := { s with prog := p, inputs := e :: l }
    (∀ c, s.prog = .cmd c :: rest → step s = step (next rest (.hostWrite 0x00#7 c.word))) ∧
    (∀ r v, s.prog = .wr r v :: rest → step s = step (next rest (.hostWrite r.offset v))) ∧
    (∀ r, s.prog = .rd r :: rest → step s = step (next rest (.hostRead r.offset))) ∧
    (s.prog = .wait :: rest → s.busy = false → step s = step (next rest (.hostRead 0x04#7))) ∧
    (s.prog = .wait :: rest → s.busy = true → step s = step (next (.wait :: rest) (.hostRead 0x04#7))) ∧
    (s.prog = [] → step s = .next { s with inputs := l })) ∧
  HostReg.offset .cmd = 0x00#7 ∧ HostReg.offset .stat = 0x04#7 ∧ HostReg.offset .opnd = 0x08#7 ∧
  HostReg.offset .result = 0x0C#7 ∧ HostReg.offset .celinLo = 0x10#7 ∧ HostReg.offset .celinHi = 0x14#7 ∧
  ∀ k : Fin 9, (HostReg.offset (.outLo k)).toNat = 0x20 + 8 * k.val ∧
    (HostReg.offset (.outHi k)).toNat = 0x24 + 8 * k.val

/-! ### Encoding -/

/-- R302, R310: words written out from the opcode map decode to their commands. -/
def Obligations.OpcodeMapWordsDecode : Prop :=
  decode 0x00000002#32 = .ok .measT ∧ decode 0x0000050D#32 = .ok (.setHlvl 0x05#8) ∧
  decode 0x0000020E#32 = .ok (.setRes 0x02#8) ∧ decode 0x0000A50A#32 = .ok (.writeHtr 0xA5#8) ∧
  decode 0x00000012#32 = .ok .cvtC ∧ decode 0xABCD0502#32 = .ok .measT ∧
  decode 0xFFFF0013#32 = .error (.unassigned 0x13#8)

/-- Decoding the encoding of a command gives it back, for every command and every operand. -/
def Obligations.DecodeOfEncodeIsTheCommand : Prop := ∀ i : Instr, decode (encode i) = .ok i

/-- The other direction: a word that decodes to a command has the command's opcode, and where the command
has an operand, the operand is the word's ARG field; so the word and the encoding agree in every bit that
is not ignored (R304). -/
def Obligations.DecodedWordsAgreeWithTheEncoding : Prop :=
  ∀ (v : Word) (i : Instr), decode v = .ok i →
    v.toNat % 256 = (encode i).toNat % 256 ∧
    ((∃ a, i = .writeUser a ∨ i = .writeHtr a ∨ i = .setHlvl a ∨ i = .setRes a) →
      v.toNat % 65536 = (encode i).toNat)

/-- R305: every command word is one of the commands or unassigned, by its low byte alone; a command has the
low byte as its opcode, and an unassigned word is rejected with it. -/
def Obligations.DecodingIsTotalByTheOpcodeAlone : Prop :=
  (∀ v : Word, (∃ i, decode v = .ok i ∧ i.opcode = v.extractLsb' 0 8) ∨
    decode v = .error (.unassigned (v.extractLsb' 0 8))) ∧
  ∀ v w : Word, v.toNat % 256 = w.toNat % 256 →
    ∀ i, decode v = .ok i → ∃ j, decode w = .ok j ∧ j.opcode = i.opcode

/-- R303: the 240 unassigned opcodes, and what a command word with one does: it is accepted (it runs), and
its first sequencer step ends it with ILLEGAL_OPCODE, with no transaction and no result. -/
def Obligations.UnassignedOpcodesEndWithIllegalOpcode : Prop :=
  (∀ op arg : Byte, decodeCommand op arg = .error (.unassigned op) ↔
    op = 0x00#8 ∨ op = 0x0F#8 ∨ 0x13 ≤ op.toNat) ∧
  ((List.range 256).filter fun n => n == 0x00 || n == 0x0F || 0x13 ≤ n).length = 240 ∧
  (∀ (s : State) (v : Word), s.busy = false →
    (s.memWrite 0x00#7 v).phase = .run ∧ (s.memWrite 0x00#7 v).op = v.extractLsb' 0 8) ∧
  ∀ (s : State) (rest : List Event), s.inputs = .sequencer :: rest → s.phase = .run → s.pend = none →
    (s.op = 0x00#8 ∨ s.op = 0x0F#8 ∨ 0x13 ≤ s.op.toNat) →
    step s = .next (failed { s with inputs := rest } .illegalOpcode)

/-- R304: bits 31:16 never change what is accepted or decoded; ARG does not change what a command that takes no
argument decodes to; and the latched copy of ARG does not change what any decoded command does. -/
def Obligations.IgnoredBitsChangeNothing : Prop :=
  (∀ (s : State) (v w : Word), v.toNat % 65536 = w.toNat % 65536 →
    decode v = decode w ∧ s.memWrite 0x00#7 v = s.memWrite 0x00#7 w) ∧
  (∀ v w : Word, v.toNat % 256 = w.toNat % 256 →
    v.toNat % 256 ≠ 0x08 → v.toNat % 256 ≠ 0x0A → v.toNat % 256 ≠ 0x0D → v.toNat % 256 ≠ 0x0E →
    decode v = decode w) ∧
  ∀ (i : Instr) (s : State) (x : Byte),
    exec i { s with arg := x } = mapNext (fun t => { t with arg := x }) (exec i s)

/-- R310: the command word of each assembler form, as a number. -/
def Obligations.AssemblerFormsGiveTheirWords : Prop :=
  (∀ i : Instr, (AsmCommand.plain i).word.toNat = i.argByte.toNat * 256 + i.opcode.toNat) ∧
  (∀ b : Byte, (AsmCommand.plain (.writeUser b)).word.toNat = b.toNat * 256 + 0x08 ∧
    (AsmCommand.plain (.writeHtr b)).word.toNat = b.toNat * 256 + 0x0A ∧
    (AsmCommand.plain (.setHlvl b)).word.toNat = b.toNat * 256 + 0x0D) ∧
  (∀ rh t : Bool, (AsmCommand.setRes rh t).word.toNat = (rh.toNat * 2 + t.toNat) * 256 + 0x0E) ∧
  (∀ (i : Instr) (b : Byte), (AsmCommand.hash i b).word.toNat = b.toNat * 256 + i.opcode.toNat) ∧
  (∀ i ∈ [Instr.measRh, .measT, .readSerial, .readDevid, .readFw, .softReset, .readUser, .readHtr, .heaterOn,
    .heaterOff, .cvtT, .cvtRh, .cvtC], (AsmCommand.plain i).word.toNat = i.opcode.toNat) ∧
  (AsmCommand.plain (.setHlvl 5#8)).word = 0x0000050D#32

/-! ### The sequencer and the transport -/

/-- R132: when the sequencer moves, phase = RUN, no request is outstanding and the latched opcode and
argument decode to `i`, the step is `exec i` on the state without the event. -/
def Obligations.StepRunsTheLatchedCommand : Prop :=
  ∀ (s : State) (i : Instr) (rest : List Event),
    s.inputs = .sequencer :: rest → s.phase = .run → s.pend = none → decodeCommand s.op s.arg = .ok i →
    i.wellFormed = true → step s = exec i { s with inputs := rest }

/-- R133: the transport's answer to an outstanding request is recorded in TRACE, clears pend, advances the
step index by one and is kept for the body; a successful read has exactly the bytes asked for. -/
def Obligations.TransportAnswerIsRecordedAndCounted : Prop :=
  ∀ (s : State) (a : Answer) (rest : List Event), s.inputs = .transport a :: rest →
    (∀ addr bytes stop, s.pend = some (.write addr bytes stop) →
      step s = .next
        { s with
          inputs := rest, pend := none, pc := s.pc + 1, resp := some (.writeDone a.status),
          trace := s.trace ++ [(.write addr bytes stop, .writeDone a.status)] }) ∧
    (∀ addr n, s.pend = some (.read addr n) → a.status ≠ .success ∨ a.bytes.length = n →
      step s = .next
        { s with
          inputs := rest, pend := none, pc := s.pc + 1, resp := some (.readDone a.status a.bytes),
          trace := s.trace ++ [(.read addr n, .readDone a.status a.bytes)] })

/-- The model's choice (log entries 10 and 11; the spec says only which steps are enabled, R136, and that a
late answer is ignored, R701): an agent whose step is not enabled, and a late answer, change nothing but
the list of coming events. -/
def Obligations.DisabledAgentsDoNothing : Prop :=
  ∀ (s : State) (rest : List Event),
    (s.inputs = .sequencer :: rest → s.phase = .idle ∨ s.pend ≠ none → step s = .next { s with inputs := rest }) ∧
    (∀ a, s.inputs = .transport a :: rest → s.pend = none → step s = .next { s with inputs := rest }) ∧
    (∀ a, s.inputs = .lateAnswer a :: rest → step s = .next { s with inputs := rest })

/-- R718, R133: while a request is outstanding, only the transport's answer or a block reset ends the wait:
BUSY stays 1 and the running command is not affected by anything else. -/
def Obligations.OnlyAnswerOrResetEndsTheWait : Prop :=
  ∀ (s t : State) (r : Request), s.Inv → s.pend = some r → step s = .next t →
    s.nextEvent.1 ≠ .blockReset → (∀ a, s.nextEvent.1 ≠ .transport a) →
    t.pend = some r ∧ t.busy = true ∧ t.phase = .run ∧ t.op = s.op ∧ t.arg = s.arg ∧ t.opnd = s.opnd ∧
    t.celin = s.celin ∧ t.pc = s.pc ∧ t.tmp = s.tmp ∧ t.trace = s.trace

/-- R600, R601: the numbers of the nine status codes, and each transport status reported as its own code. -/
def Obligations.StatusCodesHaveTheirNumbers : Prop :=
  Status.success.code = 0x00#8 ∧ Status.dataTooLong.code = 0x01#8 ∧ Status.addrNack.code = 0x02#8 ∧
  Status.dataNack.code = 0x03#8 ∧ Status.otherError.code = 0x04#8 ∧ Status.levelOutOfRange.code = 0x05#8 ∧
  Status.voltageTooLow.code = 0x06#8 ∧ Status.invalidResolution.code = 0x07#8 ∧
  Status.illegalOpcode.code = 0x08#8 ∧ transportStatus .success = .success ∧
  transportStatus .dataTooLong = .dataTooLong ∧ transportStatus .addrNack = .addrNack ∧
  transportStatus .dataNack = .dataNack ∧ transportStatus .otherError = .otherError

/-! ### Measurement and identity -/

/-- R400: MEAS_RH, its opcode, every step of its body, its two corner values and its example. -/
def Obligations.MeasRhFollowsItsRule : Prop :=
  (∀ arg, decodeCommand 0x01#8 arg = .ok .measRh) ∧ twoByteRead .measRh [0xE5#8] withRh ∧
  BitVec.ofInt 64 (rhFx 0x0000) = 0xFFFFFFFA00000000#64 ∧ BitVec.ofInt 64 (rhFx 0xFFFF) = 0x00000076FF830000#64 ∧
  BitVec.ofInt 64 (rhFx 0x5C08) = 0x00000026EFE80000#64

/-- R405: MEAS_T, its opcode, every step of its body, its corner values and its example. -/
def Obligations.MeasTFollowsItsRule : Prop :=
  (∀ arg, decodeCommand 0x02#8 arg = .ok .measT) ∧
  twoByteRead .measT [0xE3#8] (fun s raw => withTemps s (celsiusFx raw)) ∧
  BitVec.ofInt 64 (celsiusFx 0x8000) = 0x00000029028F5C29#64 ∧
  BitVec.ofInt 64 (celsiusFx 0x0000) = 0xFFFFFFD126666666#64 ∧
  BitVec.ofInt 64 (celsiusFx 0xFFFF) = 0x00000080DE08999A#64 ∧
  BitVec.ofInt 64 (celsiusFx 0x6A8E) = 0x0000001A4A308F5C#64

/-- R410: READ_SERIAL, its opcode and every step of its body; no OUT register is written. -/
def Obligations.ReadSerialFollowsItsRule : Prop :=
  (∀ arg, decodeCommand 0x03#8 arg = .ok .readSerial) ∧
  twoByteRead .readSerial [0xFA#8, 0x0F#8] (fun s _ => s)

/-- R420, R425: READ_DEVID and READ_FW, their opcodes and every step of their bodies; decoding the byte
never fails. -/
def Obligations.IdentityReadsFollowTheirRules : Prop :=
  (∀ arg, decodeCommand 0x04#8 arg = .ok .readDevid) ∧ oneByteRead .readDevid [0xFC#8, 0xC9#8] devidClass ∧
  (∀ arg, decodeCommand 0x05#8 arg = .ok .readFw) ∧ oneByteRead .readFw [0x84#8, 0xB8#8] fwClass

/-- R11, R430, R431: with well-formed parameters a byte decodes to the class its table gives it, and to 0
(UNKNOWN) exactly when the table does not list it; and the default tables at every byte. -/
def Obligations.DecodeTablesFollowTheirRules : Prop :=
  (∀ (p : Params) (b : Byte), p.wellFormed = true →
    (∀ c, (b, c) ∈ p.devidTable → devidClass p b = c) ∧ (devidClass p b = 0#8 ↔ ∀ c, (b, c) ∉ p.devidTable) ∧
    (∀ c, (b, c) ∈ p.fwTable → fwClass p b = c) ∧ (fwClass p b = 0#8 ↔ ∀ c, (b, c) ∉ p.fwTable)) ∧
  ∀ b : Byte,
    devidClass Params.default b =
      (if b = 0x00#8 ∨ b = 0xFF#8 then 1#8 else if b = 0x0D#8 then 2#8 else if b = 0x14#8 then 3#8
        else if b = 0x15#8 then 4#8 else 0#8) ∧
    fwClass Params.default b = (if b = 0xFF#8 then 1#8 else if b = 0x20#8 then 2#8 else 0#8)

/-! ### Soft reset and primitives -/

/-- R450: SOFT_RESET, its opcode and every step of its body; the stop is always sent, and the block's state
is unchanged but for the completion fields and RESULT. -/
def Obligations.SoftResetFollowsItsRule : Prop :=
  (∀ arg, decodeCommand 0x06#8 arg = .ok .softReset) ∧ oneWrite .softReset [0xFE#8] 0x0000#16

/-- R455, R465: READ_USER and READ_HTR, their opcodes and every step of their bodies. -/
def Obligations.RegisterReadsFollowTheirRules : Prop :=
  (∀ arg, decodeCommand 0x07#8 arg = .ok .readUser) ∧ oneByteRead .readUser [0xE7#8] (fun _ _ => 0#8) ∧
  (∀ arg, decodeCommand 0x09#8 arg = .ok .readHtr) ∧ oneByteRead .readHtr [0x11#8] (fun _ _ => 0#8)

/-- R460, R470: WRITE_USER and WRITE_HTR, their opcodes and every step of their bodies, with every byte. -/
def Obligations.RegisterWritesFollowTheirRules : Prop :=
  ∀ arg : Byte,
    decodeCommand 0x08#8 arg = .ok (.writeUser arg) ∧
    oneWrite (.writeUser arg) [0xE6#8, arg] (arg.setWidth 16) ∧
    decodeCommand 0x0A#8 arg = .ok (.writeHtr arg) ∧
    oneWrite (.writeHtr arg) [0x51#8, arg] (arg.setWidth 16)

/-! ### Read-modify-write -/

/-- R505: HEATER_ON, its opcode and every step of its body. -/
def Obligations.HeaterOnFollowsItsRule : Prop :=
  (∀ arg, decodeCommand 0x0B#8 arg = .ok .heaterOn) ∧ rmwChecks .heaterOn ∧
  ∀ (s : State) (b : Byte),
    startsWith .heaterOn s [0xE7#8] s.params.readStop ∧ thenReads .heaterOn s 1 ∧
    (b.getLsbD 6 = true → s.pc = 2 → s.resp = some (.readDone .success [b]) →
      exec .heaterOn s = .next (failed { s with tmp := b } .voltageTooLow)) ∧
    (b.getLsbD 6 = false → writesBack .heaterOn s b 0xE6#8 (b ||| 0x04#8))

/-- R510: HEATER_OFF, its opcode and every step of its body; bit 6 is not tested. -/
def Obligations.HeaterOffFollowsItsRule : Prop :=
  (∀ arg, decodeCommand 0x0C#8 arg = .ok .heaterOff) ∧ rmwChecks .heaterOff ∧
  ∀ (s : State) (b : Byte),
    startsWith .heaterOff s [0xE7#8] s.params.readStop ∧ thenReads .heaterOff s 1 ∧
    writesBack .heaterOff s b 0xE6#8 (b &&& 0xFB#8)

/-- R515: SET_HLVL, its opcode and every step of its body. -/
def Obligations.SetHlvlFollowsItsRule : Prop :=
  ∀ arg : Byte, decodeCommand 0x0D#8 arg = .ok (.setHlvl arg) ∧
    (16 ≤ arg.toNat → ∀ s : State, s.pc = 0 → exec (.setHlvl arg) s = .next (failed s .levelOutOfRange)) ∧
    (arg.toNat ≤ 15 → rmwChecks (.setHlvl arg) ∧
      ∀ (s : State) (b : Byte),
        startsWith (.setHlvl arg) s [0x11#8] s.params.readStop ∧ thenReads (.setHlvl arg) s 1 ∧
        writesBack (.setHlvl arg) s b 0x51#8 ((b &&& 0xF0#8) ||| arg))

/-- R520: SET_RES, its opcode and every step of its body, for both targets and every pair of bit
positions; M and V are written out from the rule. -/
def Obligations.SetResFollowsItsRule : Prop :=
  ∀ arg : Byte, decodeCommand 0x0E#8 arg = .ok (.setRes arg) ∧
    (4 ≤ arg.toNat → ∀ s : State, s.pc = 0 → exec (.setRes arg) s = .next (failed s .invalidResolution)) ∧
    (arg.toNat ≤ 3 → rmwChecks (.setRes arg) ∧
      ∀ (s : State) (b : Byte),
        let htr := s.params.resTarget = .htr
        let m := (1#8 <<< s.params.resHiBit.val) ||| (1#8 <<< s.params.resLoBit.val)
        let v := (BitVec.ofNat 8 (arg.toNat / 2) <<< s.params.resHiBit.val) |||
          (BitVec.ofNat 8 (arg.toNat % 2) <<< s.params.resLoBit.val)
        startsWith (.setRes arg) s [if htr then 0x11#8 else 0xE7#8] s.params.readStop ∧
        thenReads (.setRes arg) s 1 ∧
        writesBack (.setRes arg) s b (if htr then 0x51#8 else 0xE6#8) ((b &&& ~~~m) ||| v))

/-- R501, R504, R122: in the byte a read-modify-write writes back, every bit outside its target equals the
bit just read, and every target bit has its target value; the byte is read fresh: whatever tmp and RESULT held
before (`x`, `d`, `c`), the step is the same, and keeps RESULT. -/
def Obligations.RmwPreservesEveryOtherBit : Prop :=
  ∀ (i : Instr) (s : State) (b : Byte), legalRmw i = true → s.params.wellFormed = true →
    s.pc = 2 → s.resp = some (.readDone .success [b]) → (i = .heaterOn → b.getLsbD 6 = false) →
    ∃ (t : State) (wc new : Byte),
      (∀ (x c : Byte) (d : Half),
        exec i { s with tmp := x, data16 := d, dclass := c } = .next { t with data16 := d, dclass := c }) ∧
      t.pend = some (.write 0x40#7 [wc, new] true) ∧ t.tmp = b ∧
      ∀ k < 8, new.getLsbD k = (targetBit s.params i k).getD (b.getLsbD k)

/-! ### Conversion -/

/-- R560, R565, R570: the conversion commands, their opcodes, and their one step, which always ends with
SUCCESS, with no bus traffic and RESULT unchanged. CVT_C reads CELIN as a signed number. Then the rules' corner values and
examples: a wrap at the greatest CELIN, and none inside 1.19e9 degrees. -/
def Obligations.ConversionsFollowTheirRules : Prop :=
  (∀ arg, decodeCommand 0x10#8 arg = .ok .cvtT) ∧
  (∀ s : State, exec .cvtT s = .next (succeeded (withTemps s (celsiusFx s.opnd.toNat)))) ∧
  (∀ arg, decodeCommand 0x11#8 arg = .ok .cvtRh) ∧
  (∀ s : State, exec .cvtRh s = .next (succeeded (withRh s s.opnd.toNat))) ∧
  (∀ arg, decodeCommand 0x12#8 arg = .ok .cvtC) ∧
  (∀ s : State, exec .cvtC s = .next (succeeded (withTemps s s.celin.toInt))) ∧
  BitVec.ofInt 64 (celsiusFx 0x6A8E) = 0x0000001A4A308F5C#64 ∧
  BitVec.ofInt 64 (scaleFx .kel (celsiusFx 0x6A8E)) = 0x0000012B7096F5C2#64 ∧
  BitVec.ofInt 64 (rhFx 0) = 0xFFFFFFFA00000000#64 ∧ BitVec.ofInt 64 (rhFx 3146) = 0x0000000000220000#64 ∧
  BitVec.ofInt 64 (rhFx 0x5C08) = 0x00000026EFE80000#64 ∧ (∀ h : Nat, 0 ≤ rhFx h ↔ 3146 ≤ h) ∧
  BitVec.ofInt 64 (scaleFx .kel (2 ^ 63 - 1)) = 0x8000011126666665#64 ∧
  BitVec.ofInt 64 (scaleFx .fah (-40 * 2 ^ 32)) = 0xFFFFFFD800000000#64 ∧
  BitVec.ofInt 64 (scaleFx .fah (100 * 2 ^ 32)) = 0x000000D400000000#64 ∧ scaleFx .del (100 * 2 ^ 32) = 0 ∧
  ∀ (sc : Scale) (c : Int), |c| ≤ 1190000000 * 2 ^ 32 → scaleFx sc c = scaleExact sc c

/-- R15: `rnd` is the floor the rule gives: the nearest integer, with ties toward plus infinity. -/
def Obligations.RndRoundsToNearestTiesUp : Prop :=
  ∀ n d : Int, 0 < d →
    rnd n d = ⌊(2 * n + d : ℚ) / (2 * d)⌋ ∧
    (rnd n d : ℚ) - n / d ≤ 1 / 2 ∧ (n : ℚ) / d - rnd n d < 1 / 2

/-- R550: the Celsius value of a raw code is the formula's exact value times 2^32, rounded once, and never
on a tie. -/
def Obligations.CelsiusIsTheFormulaRoundedOnce : Prop :=
  ∀ t : Nat, t < 65536 →
    celsiusFx t = ⌊2 ^ 32 * celsiusFormula t + 1 / 2⌋ ∧
    ∀ k : Int, 2 ^ 32 * celsiusFormula t ≠ (k : ℚ) + 1 / 2

/-- R551: relative humidity is exact and not clamped; its range is from -6 to below 119. -/
def Obligations.HumidityIsExactAndUnclamped : Prop :=
  ∀ h : Nat, h < 65536 →
    (rhFx h : ℚ) = 2 ^ 32 * (125 * h / 65536 - 6) ∧ rhFx h = 8192000 * h - 25769803776 ∧
    rhFx 0 ≤ rhFx h ∧ rhFx h ≤ rhFx 65535 ∧ (rhFx 0 : ℚ) = 2 ^ 32 * (-6) ∧
    (118998092651 : ℚ) / 10 ^ 9 ≤ rhFx 65535 / 2 ^ 32 ∧ (rhFx 65535 : ℚ) / 2 ^ 32 < 118998092652 / 10 ^ 9

/-- R552: each scale of a Q31.32 Celsius value is the source formula's exact value times 2^32, rounded once
(ties up) and then read as a 64-bit two's-complement number. -/
def Obligations.ScalesAreTheSourceFormulasRoundedOnce : Prop :=
  ∀ (sc : Scale) (c : Int),
    scaleFx sc c = (BitVec.ofInt 64 ⌊2 ^ 32 * sourceFormula sc ((c : ℚ) / 2 ^ 32) + 1 / 2⌋).toInt

/-- R556: the accuracy of every output of a raw code against the source's formulas. -/
def Obligations.ConversionAccuracy : Prop :=
  ∀ t : Nat, t < 65536 →
    |(celsiusFx t : ℚ) / 2 ^ 32 - celsiusFormula t| ≤ 1 / 2 ^ 33 ∧
    (∀ sc : Scale,
      |(scaleFx sc (celsiusFx t) : ℚ) / 2 ^ 32 - sourceFormula sc (celsiusFormula t)|
        ≤ (|(sc.an : ℚ) / sc.ad| + 1) / 2 ^ 33 ∧
      (|(sc.an : ℚ) / sc.ad| + 1) / 2 ^ 33 ≤ 28 / 10 / 2 ^ 33) ∧
    (28 : ℚ) / 10 / 2 ^ 33 < 1 / 10 ^ 9 ∧
    (rhFx t : ℚ) / 2 ^ 32 = 125 * t / 65536 - 6

/-- R554: no output of a raw code wraps: the 64-bit register that holds it reads back, as a signed number, as the
exact value. Every output lies between the extreme rows of tables V-C1 and V-C2 (the rule's own decimals are
rounded; these are the exact integers). The humidity bounds are `rhFx 0` and `rhFx 65535`. -/
def Obligations.RawCodeOutputsNeverWrap : Prop :=
  (∀ t : Nat, t < 65536 →
    (BitVec.ofInt 64 (celsiusFx t)).toInt = celsiusFx t ∧
    -201219217818 ≤ celsiusFx t ∧ celsiusFx t ≤ 553480919450 ∧
    ∀ sc : Scale,
      scaleFx sc (celsiusFx t) = scaleExact sc (celsiusFx t) ∧
      (BitVec.ofInt 64 (scaleFx sc (celsiusFx t))).toInt = scaleExact sc (celsiusFx t) ∧
      -224755638600 ≤ scaleFx sc (celsiusFx t) ∧ scaleFx sc (celsiusFx t) ≤ 3107972225434) ∧
  (∀ h : Nat, h < 65536 →
    (BitVec.ofInt 64 (rhFx h)).toInt = rhFx h ∧ -25769803776 ≤ rhFx h ∧ rhFx h ≤ 511092916224) ∧
  rhFx 0 = -25769803776 ∧ rhFx 65535 = 511092916224

/-- R571: CVT_C on the Celsius value of a raw code gives the same eight outputs as CVT_T on the code, and as
MEAS_T on a read of the same code. -/
def Obligations.CelsiusRoundTrip : Prop :=
  ∀ (s m : State) (b0 b1 : Byte), m.pc = 2 → m.resp = some (.readDone .success [b0, b1]) → m.out.rh = s.out.rh →
    ∃ u v w : State,
      exec .cvtC { s with celin := BitVec.ofInt 64 (celsiusFx (b0 ++ b1 : Half).toNat) } = .next u ∧
      exec .cvtT { s with opnd := b0 ++ b1 } = .next v ∧ exec .measT m = .next w ∧
      u.out = v.out ∧ w.out = v.out

/-- R572 as the rule words it: no scale wraps while |c/2^32| < (2^31 - 491.67)/1.8. The model refutes it at
one value, c = 5124094402860114102, where Rankine rounds up to exactly 2^63. -/
def Obligations.WrapBoundAsTheRuleWordsIt : Prop :=
  ∀ (sc : Scale) (c : Int), |(c : ℚ) / 2 ^ 32| < (2 ^ 31 - 49167 / 100) / (18 / 10) →
    scaleFx sc c = scaleExact sc c

/-- R572 with the one value left out: no scale wraps while |c| ≤ 5124094402860114101, and at the next value
Rankine does. -/
def Obligations.WrapBoundExact : Prop :=
  (∀ (sc : Scale) (c : Int), |c| ≤ 5124094402860114101 → scaleFx sc c = scaleExact sc c) ∧
  scaleFx .ran 5124094402860114102 ≠ scaleExact .ran 5124094402860114102

/-! ### The whole machine -/

/-- R306, R307: the table of transaction sequences, every row. -/
def Obligations.TransactionTableIsTheRules : Prop :=
  ∀ (p : Params) (tmp arg : Byte),
    let w (bytes : List Byte) (stop : Bool) : Option Request := some (.write 0x40#7 bytes stop)
    let r (n : Nat) : Option Request := some (.read 0x40#7 n)
    let row (i : Instr) : List (Option Request) := (List.range 4).map (transaction p tmp i)
    row .measRh = [w [0xE5#8] p.readStop, r 2, none, none] ∧
    row .measT = [w [0xE3#8] p.readStop, r 2, none, none] ∧
    row .readSerial = [w [0xFA#8, 0x0F#8] p.readStop, r 2, none, none] ∧
    row .readDevid = [w [0xFC#8, 0xC9#8] p.readStop, r 1, none, none] ∧
    row .readFw = [w [0x84#8, 0xB8#8] p.readStop, r 1, none, none] ∧
    row .softReset = [w [0xFE#8] true, none, none, none] ∧
    row .readUser = [w [0xE7#8] p.readStop, r 1, none, none] ∧
    row (.writeUser arg) = [w [0xE6#8, arg] true, none, none, none] ∧
    row .readHtr = [w [0x11#8] p.readStop, r 1, none, none] ∧
    row (.writeHtr arg) = [w [0x51#8, arg] true, none, none, none] ∧
    row .heaterOn = [w [0xE7#8] p.readStop, r 1,
      (if tmp.getLsbD 6 then none else w [0xE6#8, tmp ||| 0x04#8] true), none] ∧
    row .heaterOff = [w [0xE7#8] p.readStop, r 1, w [0xE6#8, tmp &&& 0xFB#8] true, none] ∧
    (arg.toNat ≤ 15 →
      row (.setHlvl arg) = [w [0x11#8] p.readStop, r 1, w [0x51#8, (tmp &&& 0xF0#8) ||| arg] true, none]) ∧
    (16 ≤ arg.toNat → row (.setHlvl arg) = [none, none, none, none]) ∧
    (arg.toNat ≤ 3 → p.resTarget = .htr →
      row (.setRes arg) = [w [0x11#8] p.readStop, r 1, w [0x51#8, resolutionByte p arg tmp] true, none]) ∧
    (arg.toNat ≤ 3 → p.resTarget = .user →
      row (.setRes arg) = [w [0xE7#8] p.readStop, r 1, w [0xE6#8, resolutionByte p arg tmp] true, none]) ∧
    (4 ≤ arg.toNat → row (.setRes arg) = [none, none, none, none]) ∧
    row .cvtT = [none, none, none, none] ∧ row .cvtRh = [none, none, none, none] ∧
    row .cvtC = [none, none, none, none]

/-- R132, R307, R210: one sequencer step of a running command either asks for exactly the next entry of the
transaction table, or completes the command. -/
def Obligations.RequestsFollowTheTransactionTable : Prop :=
  ∀ (s : State) (i : Instr), s.Inv → s.Runs i → s.pend = none →
    ∃ t, exec i s = .next t ∧
      ((t.phase = .run ∧ t.busy = true ∧ t.pc = s.pc ∧ t.resp = none ∧
          t.pend = transaction t.params t.tmp i s.pc ∧ t.pend ≠ none) ∨
        (t.phase = .idle ∧ t.busy = false ∧ t.pend = none ∧ t.valid = decide (t.status = .success)))

/-- R605: after a transaction that did not return SUCCESS, the command issues no further transaction: its
next step ends it with that status, verbatim, and writes no result. For every command and every one of its
transactions. -/
def Obligations.FailedTransactionEndsTheCommand : Prop :=
  ∀ (s : State) (i : Instr) (k : Nat) (r : Request) (st : BusStatus) (bs : List Byte),
    s.pc = k + 1 → transaction s.params s.tmp i k = some r → st ≠ .success →
    (∀ addr bytes stop, r = .write addr bytes stop → s.resp = some (.writeDone st)) →
    (∀ addr n, r = .read addr n → s.resp = some (.readDone st bs)) →
    exec i s = .next (failed s (transportStatus st))

/-- The invariant holds at reset, for every choice of well-formed parameters. -/
def Obligations.InvariantHoldsAtReset : Prop :=
  State.reset.Inv ∧ ∀ p : Params, p.wellFormed = true → (State.resetWith p).Inv

/-- Every step keeps the invariant, from every state that has it, whatever event comes next. -/
def Obligations.EveryStepKeepsTheInvariant : Prop :=
  ∀ s t : State, s.Inv → step s = .next t → t.Inv

/-- R136: the block itself never blocks: from every state with the invariant, whatever event comes next, the
step ends in a next state, never in a fault or a refusal. -/
def Obligations.TheBlockNeverBlocks : Prop := ∀ s : State, s.Inv → s.Safe

/-- Every accepted command ends: if the sequencer and the transport take turns and the transport answers
every request (a successful second answer having the bytes the table asks for), BUSY is 0 after at most
seven steps, whatever the answers are (R121, R133, R136, R720). A command that ends early leaves some of the
seven events over, and those change nothing: the model's choice of log entry 10. -/
def Obligations.AnsweredCommandsEndWithinSevenSteps : Prop :=
  ∀ (s : State) (a0 a1 a2 : Answer) (rest : List Event), s.Inv → s.phase = .run → s.pc = 0 → s.pend = none →
    s.inputs = [.sequencer, .transport a0, .sequencer, .transport a1, .sequencer, .transport a2, .sequencer] ++ rest →
    (∀ i n, decodeCommand s.op s.arg = .ok i → transaction s.params s.tmp i 1 = some (.read 0x40#7 n) →
      a1.status = .success → a1.bytes.length = n) →
    ∃ t, Sys2Proof.core.run 7 s = .next t ∧ t.Inv ∧ t.busy = false ∧ t.inputs = rest

/-- A whole successful run of each two-transaction read: what TRACE records and what RESULT holds
(R130 to R133, R307). -/
def Obligations.SuccessfulReadRun : Prop :=
  ∀ (s : State) (i : Instr) (n : Nat) (junk bs : List Byte) (rest : List Event),
    readLength i = some n → s.Runs i → s.pc = 0 → s.pend = none → bs.length = n →
    s.inputs = [.sequencer, .transport ⟨.success, junk⟩, .sequencer, .transport ⟨.success, bs⟩, .sequencer] ++ rest →
    ∃ (t : State) (cmd : List Byte), Sys2Proof.core.run 5 s = .next t ∧
      transaction s.params s.tmp i 0 = some (.write 0x40#7 cmd s.params.readStop) ∧
      t.trace = s.trace ++
        [(.write 0x40#7 cmd s.params.readStop, .writeDone .success), (.read 0x40#7 n, .readDone .success bs)] ∧
      t.data16 = dataOf bs ∧ t.status = .success ∧ t.valid = true ∧ t.busy = false ∧ t.inputs = rest

/-- A whole successful run of a read-modify-write: its three transactions are the three entries of its row of the
transaction table, the third one for the byte just read, and DATA16 is the byte written (R500 to R503, R307). -/
def Obligations.SuccessfulRmwRun : Prop :=
  ∀ (s : State) (i : Instr) (b : Byte) (j0 j2 : List Byte) (rest : List Event),
    legalRmw i = true → (i = .heaterOn → b.getLsbD 6 = false) → s.Runs i → s.pc = 0 → s.pend = none →
    s.inputs = [.sequencer, .transport ⟨.success, j0⟩, .sequencer, .transport ⟨.success, [b]⟩, .sequencer,
      .transport ⟨.success, j2⟩, .sequencer] ++ rest →
    ∃ (t : State) (rc wc new : Byte), Sys2Proof.core.run 7 s = .next t ∧
      transaction s.params b i 0 = some (.write 0x40#7 [rc] s.params.readStop) ∧
      transaction s.params b i 1 = some (.read 0x40#7 1) ∧
      transaction s.params b i 2 = some (.write 0x40#7 [wc, new] true) ∧
      t.trace = s.trace ++
        [(.write 0x40#7 [rc] s.params.readStop, .writeDone .success), (.read 0x40#7 1, .readDone .success [b]),
         (.write 0x40#7 [wc, new] true, .writeDone .success)] ∧
      t.data16 = new.setWidth 16 ∧ t.dclass = 0#8 ∧ t.out = s.out ∧ t.status = .success ∧ t.valid = true ∧
      t.busy = false

/-- R108: which event writes which flag, in every step but a block reset. -/
def Obligations.EachFlagHasItsWriters : Prop :=
  ∀ s t : State, s.Inv → step s = .next t → s.nextEvent.1 ≠ .blockReset →
    let e := s.nextEvent.1
    let accepts := s.busy = false ∧ cmdWord s e ≠ none
    let completes := s.busy = true ∧ t.busy = false
    (accepts → t.busy = true ∧ t.valid = false ∧ ∃ v, cmdWord s e = some v ∧ t.lastOp = v.extractLsb' 0 8) ∧
    (completes → e = .sequencer ∧ t.valid = decide (t.status = .success)) ∧
    (t.busy ≠ s.busy → accepts ∨ completes) ∧
    (t.valid ≠ s.valid → accepts ∨ completes) ∧
    (t.status ≠ s.status → completes) ∧
    (t.lastOp ≠ s.lastOp → accepts) ∧
    (s.ovr = false → (t.ovr = true ↔ s.busy = true ∧ cmdWord s e ≠ none)) ∧
    (s.ovr = true → (t.ovr = false ↔ ∃ v, statWrite s e = some v ∧ v.getLsbD 2 = true))

/-- R104, R106, R602: RESULT and OUT change only when a command ends with SUCCESS, in that very step. -/
def Obligations.ResultsChangeOnlyOnSuccess : Prop :=
  ∀ s t : State, step s = .next t → s.nextEvent.1 ≠ .blockReset →
    ¬ (t.data16 = s.data16 ∧ t.dclass = s.dclass ∧ t.out = s.out) →
    s.nextEvent.1 = .sequencer ∧ s.phase = .run ∧ t.status = .success ∧ t.valid = true ∧ t.busy = false

/-- R208: once BUSY is 0, the status and the results stand until the next accept (or a block reset). -/
def Obligations.ResultsStandUntilTheNextAccept : Prop :=
  ∀ s t : State, s.Inv → s.busy = false → step s = .next t → s.nextEvent.1 ≠ .blockReset →
    cmdWord s s.nextEvent.1 = none →
    t.busy = false ∧ t.status = s.status ∧ t.valid = s.valid ∧ t.data16 = s.data16 ∧ t.dclass = s.dclass ∧
    t.out = s.out

/-- R209: while a command runs, nothing the host writes changes its latched opcode, argument and operands;
only a block reset does. -/
def Obligations.RunningCommandKeepsItsOperands : Prop :=
  ∀ s t : State, s.busy = true → step s = .next t → s.nextEvent.1 ≠ .blockReset →
    t.op = s.op ∧ t.arg = s.arg ∧ t.opnd = s.opnd ∧ t.celin = s.celin

/-- D27, R125: no step changes the build parameters, and TRACE only ever grows, by one lawful answer to the
outstanding request. -/
def Obligations.StepsKeepParametersAndExtendTrace : Prop :=
  ∀ s t : State, step s = .next t →
    t.params = s.params ∧
    (t.trace = s.trace ∨
      ∃ r a, s.pend = some r ∧ answersRequest r a = true ∧ t.trace = s.trace ++ [(r, a)] ∧ t.pend = none ∧
        t.pc = s.pc + 1)

/-- R209, R124, R125: what a running command does depends on nothing but its latched operands and the
block's own registers: other values of the host's OPND and CELIN, of OVR and LAST_OP, of the observations
and of the agents outside give the same step, with those values kept. -/
def Obligations.CommandsDependOnLatchedStateOnly : Prop :=
  ∀ (i : Instr) (s p : State), exec i (repaint s p) = mapNext (fun t => repaint t p) (exec i s)
end

