-- ==== Sys2Proof/Laws/Decode.lean ====
section
/-! SUPPORT. The opcode map, inverted once: what the decoder's answers say about the opcode. -/

namespace Sys2Proof

/-- A command that decodes has the opcode it was decoded from (R302). -/
theorem decodeCommand_ok {op arg : Byte} {i : Instr} (h : decodeCommand op arg = .ok i) :
    i.opcode = op ∧ ((∀ b, decodeCommand op b = .ok i) ∨ i.argByte = arg) := by
  unfold decodeCommand at h
  split at h <;> first | (cases h; done) | (cases h; exact ⟨rfl, by first | exact .inl fun _ => rfl | exact .inr rfl⟩)

/-- An opcode that does not decode is rejected by its own value (R303). -/
theorem decodeCommand_error {op arg : Byte} {e : DecodeError} (h : decodeCommand op arg = .error e) :
    e = .unassigned op := by
  unfold decodeCommand at h
  split at h <;> first | (cases h; done) | (cases h; rfl)

/-- A command's own opcode and argument decode to it. -/
theorem decodeCommand_fields (i : Instr) : decodeCommand i.opcode i.argByte = .ok i := by
  cases i <;> rfl

end Sys2Proof
end

