-- ==== Sys2Proof/Laws/State.lean ====
section
/-! SUPPORT. One lemma per field per update of the state, true by rfl, so that no proof unfolds a record
update. -/

namespace Sys2Proof.Machine

variable (s : State)

/-! `State.acceptFlags` -/

@[simp] theorem State.acceptFlags_params (op : Byte) : (s.acceptFlags op).params = s.params := rfl
@[simp] theorem State.acceptFlags_busy (op : Byte) : (s.acceptFlags op).busy = true := rfl
@[simp] theorem State.acceptFlags_valid (op : Byte) : (s.acceptFlags op).valid = false := rfl
@[simp] theorem State.acceptFlags_ovr (op : Byte) : (s.acceptFlags op).ovr = s.ovr := rfl
@[simp] theorem State.acceptFlags_status (op : Byte) : (s.acceptFlags op).status = s.status := rfl
@[simp] theorem State.acceptFlags_lastOp (op : Byte) : (s.acceptFlags op).lastOp = op := rfl
@[simp] theorem State.acceptFlags_opndRaw (op : Byte) : (s.acceptFlags op).opndRaw = s.opndRaw := rfl
@[simp] theorem State.acceptFlags_data16 (op : Byte) : (s.acceptFlags op).data16 = s.data16 := rfl
@[simp] theorem State.acceptFlags_dclass (op : Byte) : (s.acceptFlags op).dclass = s.dclass := rfl
@[simp] theorem State.acceptFlags_celinReg (op : Byte) : (s.acceptFlags op).celinReg = s.celinReg := rfl
@[simp] theorem State.acceptFlags_out (op : Byte) : (s.acceptFlags op).out = s.out := rfl
@[simp] theorem State.acceptFlags_phase (op : Byte) : (s.acceptFlags op).phase = s.phase := rfl
@[simp] theorem State.acceptFlags_op (op : Byte) : (s.acceptFlags op).op = s.op := rfl
@[simp] theorem State.acceptFlags_arg (op : Byte) : (s.acceptFlags op).arg = s.arg := rfl
@[simp] theorem State.acceptFlags_opnd (op : Byte) : (s.acceptFlags op).opnd = s.opnd := rfl
@[simp] theorem State.acceptFlags_celin (op : Byte) : (s.acceptFlags op).celin = s.celin := rfl
@[simp] theorem State.acceptFlags_pc (op : Byte) : (s.acceptFlags op).pc = s.pc := rfl
@[simp] theorem State.acceptFlags_tmp (op : Byte) : (s.acceptFlags op).tmp = s.tmp := rfl
@[simp] theorem State.acceptFlags_pend (op : Byte) : (s.acceptFlags op).pend = s.pend := rfl
@[simp] theorem State.acceptFlags_resp (op : Byte) : (s.acceptFlags op).resp = s.resp := rfl
@[simp] theorem State.acceptFlags_trace (op : Byte) : (s.acceptFlags op).trace = s.trace := rfl
@[simp] theorem State.acceptFlags_reads (op : Byte) : (s.acceptFlags op).reads = s.reads := rfl
@[simp] theorem State.acceptFlags_prog (op : Byte) : (s.acceptFlags op).prog = s.prog := rfl
@[simp] theorem State.acceptFlags_inputs (op : Byte) : (s.acceptFlags op).inputs = s.inputs := rfl
@[simp] theorem State.acceptFlags_draws (op : Byte) : (s.acceptFlags op).draws = s.draws := rfl

/-! `State.completionFlags` -/

@[simp] theorem State.completionFlags_params (c : Status) : (s.completionFlags c).params = s.params := rfl
@[simp] theorem State.completionFlags_busy (c : Status) : (s.completionFlags c).busy = false := rfl
@[simp] theorem State.completionFlags_valid (c : Status) : (s.completionFlags c).valid = decide (c = .success) := rfl
@[simp] theorem State.completionFlags_ovr (c : Status) : (s.completionFlags c).ovr = s.ovr := rfl
@[simp] theorem State.completionFlags_status (c : Status) : (s.completionFlags c).status = c := rfl
@[simp] theorem State.completionFlags_lastOp (c : Status) : (s.completionFlags c).lastOp = s.lastOp := rfl
@[simp] theorem State.completionFlags_opndRaw (c : Status) : (s.completionFlags c).opndRaw = s.opndRaw := rfl
@[simp] theorem State.completionFlags_data16 (c : Status) : (s.completionFlags c).data16 = s.data16 := rfl
@[simp] theorem State.completionFlags_dclass (c : Status) : (s.completionFlags c).dclass = s.dclass := rfl
@[simp] theorem State.completionFlags_celinReg (c : Status) : (s.completionFlags c).celinReg = s.celinReg := rfl
@[simp] theorem State.completionFlags_out (c : Status) : (s.completionFlags c).out = s.out := rfl
@[simp] theorem State.completionFlags_phase (c : Status) : (s.completionFlags c).phase = s.phase := rfl
@[simp] theorem State.completionFlags_op (c : Status) : (s.completionFlags c).op = s.op := rfl
@[simp] theorem State.completionFlags_arg (c : Status) : (s.completionFlags c).arg = s.arg := rfl
@[simp] theorem State.completionFlags_opnd (c : Status) : (s.completionFlags c).opnd = s.opnd := rfl
@[simp] theorem State.completionFlags_celin (c : Status) : (s.completionFlags c).celin = s.celin := rfl
@[simp] theorem State.completionFlags_pc (c : Status) : (s.completionFlags c).pc = s.pc := rfl
@[simp] theorem State.completionFlags_tmp (c : Status) : (s.completionFlags c).tmp = s.tmp := rfl
@[simp] theorem State.completionFlags_pend (c : Status) : (s.completionFlags c).pend = s.pend := rfl
@[simp] theorem State.completionFlags_resp (c : Status) : (s.completionFlags c).resp = s.resp := rfl
@[simp] theorem State.completionFlags_trace (c : Status) : (s.completionFlags c).trace = s.trace := rfl
@[simp] theorem State.completionFlags_reads (c : Status) : (s.completionFlags c).reads = s.reads := rfl
@[simp] theorem State.completionFlags_prog (c : Status) : (s.completionFlags c).prog = s.prog := rfl
@[simp] theorem State.completionFlags_inputs (c : Status) : (s.completionFlags c).inputs = s.inputs := rfl
@[simp] theorem State.completionFlags_draws (c : Status) : (s.completionFlags c).draws = s.draws := rfl

/-! `State.setOvr` -/

@[simp] theorem State.setOvr_params : s.setOvr.params = s.params := rfl
@[simp] theorem State.setOvr_busy : s.setOvr.busy = s.busy := rfl
@[simp] theorem State.setOvr_valid : s.setOvr.valid = s.valid := rfl
@[simp] theorem State.setOvr_ovr : s.setOvr.ovr = true := rfl
@[simp] theorem State.setOvr_status : s.setOvr.status = s.status := rfl
@[simp] theorem State.setOvr_lastOp : s.setOvr.lastOp = s.lastOp := rfl
@[simp] theorem State.setOvr_opndRaw : s.setOvr.opndRaw = s.opndRaw := rfl
@[simp] theorem State.setOvr_data16 : s.setOvr.data16 = s.data16 := rfl
@[simp] theorem State.setOvr_dclass : s.setOvr.dclass = s.dclass := rfl
@[simp] theorem State.setOvr_celinReg : s.setOvr.celinReg = s.celinReg := rfl
@[simp] theorem State.setOvr_out : s.setOvr.out = s.out := rfl
@[simp] theorem State.setOvr_phase : s.setOvr.phase = s.phase := rfl
@[simp] theorem State.setOvr_op : s.setOvr.op = s.op := rfl
@[simp] theorem State.setOvr_arg : s.setOvr.arg = s.arg := rfl
@[simp] theorem State.setOvr_opnd : s.setOvr.opnd = s.opnd := rfl
@[simp] theorem State.setOvr_celin : s.setOvr.celin = s.celin := rfl
@[simp] theorem State.setOvr_pc : s.setOvr.pc = s.pc := rfl
@[simp] theorem State.setOvr_tmp : s.setOvr.tmp = s.tmp := rfl
@[simp] theorem State.setOvr_pend : s.setOvr.pend = s.pend := rfl
@[simp] theorem State.setOvr_resp : s.setOvr.resp = s.resp := rfl
@[simp] theorem State.setOvr_trace : s.setOvr.trace = s.trace := rfl
@[simp] theorem State.setOvr_reads : s.setOvr.reads = s.reads := rfl
@[simp] theorem State.setOvr_prog : s.setOvr.prog = s.prog := rfl
@[simp] theorem State.setOvr_inputs : s.setOvr.inputs = s.inputs := rfl
@[simp] theorem State.setOvr_draws : s.setOvr.draws = s.draws := rfl

/-! `State.writeStat` -/

@[simp] theorem State.writeStat_params (v : Word) : (s.writeStat v).params = s.params := rfl
@[simp] theorem State.writeStat_busy (v : Word) : (s.writeStat v).busy = s.busy := rfl
@[simp] theorem State.writeStat_valid (v : Word) : (s.writeStat v).valid = s.valid := rfl
@[simp] theorem State.writeStat_ovr (v : Word) : (s.writeStat v).ovr = (s.ovr && !v.getLsbD 2) := rfl
@[simp] theorem State.writeStat_status (v : Word) : (s.writeStat v).status = s.status := rfl
@[simp] theorem State.writeStat_lastOp (v : Word) : (s.writeStat v).lastOp = s.lastOp := rfl
@[simp] theorem State.writeStat_opndRaw (v : Word) : (s.writeStat v).opndRaw = s.opndRaw := rfl
@[simp] theorem State.writeStat_data16 (v : Word) : (s.writeStat v).data16 = s.data16 := rfl
@[simp] theorem State.writeStat_dclass (v : Word) : (s.writeStat v).dclass = s.dclass := rfl
@[simp] theorem State.writeStat_celinReg (v : Word) : (s.writeStat v).celinReg = s.celinReg := rfl
@[simp] theorem State.writeStat_out (v : Word) : (s.writeStat v).out = s.out := rfl
@[simp] theorem State.writeStat_phase (v : Word) : (s.writeStat v).phase = s.phase := rfl
@[simp] theorem State.writeStat_op (v : Word) : (s.writeStat v).op = s.op := rfl
@[simp] theorem State.writeStat_arg (v : Word) : (s.writeStat v).arg = s.arg := rfl
@[simp] theorem State.writeStat_opnd (v : Word) : (s.writeStat v).opnd = s.opnd := rfl
@[simp] theorem State.writeStat_celin (v : Word) : (s.writeStat v).celin = s.celin := rfl
@[simp] theorem State.writeStat_pc (v : Word) : (s.writeStat v).pc = s.pc := rfl
@[simp] theorem State.writeStat_tmp (v : Word) : (s.writeStat v).tmp = s.tmp := rfl
@[simp] theorem State.writeStat_pend (v : Word) : (s.writeStat v).pend = s.pend := rfl
@[simp] theorem State.writeStat_resp (v : Word) : (s.writeStat v).resp = s.resp := rfl
@[simp] theorem State.writeStat_trace (v : Word) : (s.writeStat v).trace = s.trace := rfl
@[simp] theorem State.writeStat_reads (v : Word) : (s.writeStat v).reads = s.reads := rfl
@[simp] theorem State.writeStat_prog (v : Word) : (s.writeStat v).prog = s.prog := rfl
@[simp] theorem State.writeStat_inputs (v : Word) : (s.writeStat v).inputs = s.inputs := rfl
@[simp] theorem State.writeStat_draws (v : Word) : (s.writeStat v).draws = s.draws := rfl

/-! `State.accept` -/

@[simp] theorem State.accept_params (v : Word) : (s.accept v).params = s.params := rfl
@[simp] theorem State.accept_busy (v : Word) : (s.accept v).busy = true := rfl
@[simp] theorem State.accept_valid (v : Word) : (s.accept v).valid = false := rfl
@[simp] theorem State.accept_ovr (v : Word) : (s.accept v).ovr = s.ovr := rfl
@[simp] theorem State.accept_status (v : Word) : (s.accept v).status = s.status := rfl
@[simp] theorem State.accept_lastOp (v : Word) : (s.accept v).lastOp = opField v := rfl
@[simp] theorem State.accept_opndRaw (v : Word) : (s.accept v).opndRaw = s.opndRaw := rfl
@[simp] theorem State.accept_data16 (v : Word) : (s.accept v).data16 = s.data16 := rfl
@[simp] theorem State.accept_dclass (v : Word) : (s.accept v).dclass = s.dclass := rfl
@[simp] theorem State.accept_celinReg (v : Word) : (s.accept v).celinReg = s.celinReg := rfl
@[simp] theorem State.accept_out (v : Word) : (s.accept v).out = s.out := rfl
@[simp] theorem State.accept_phase (v : Word) : (s.accept v).phase = .run := rfl
@[simp] theorem State.accept_op (v : Word) : (s.accept v).op = opField v := rfl
@[simp] theorem State.accept_arg (v : Word) : (s.accept v).arg = argField v := rfl
@[simp] theorem State.accept_opnd (v : Word) : (s.accept v).opnd = s.opndRaw := rfl
@[simp] theorem State.accept_celin (v : Word) : (s.accept v).celin = s.celinReg := rfl
@[simp] theorem State.accept_pc (v : Word) : (s.accept v).pc = 0 := rfl
@[simp] theorem State.accept_tmp (v : Word) : (s.accept v).tmp = 0#8 := rfl
@[simp] theorem State.accept_pend (v : Word) : (s.accept v).pend = none := rfl
@[simp] theorem State.accept_resp (v : Word) : (s.accept v).resp = none := rfl
@[simp] theorem State.accept_trace (v : Word) : (s.accept v).trace = s.trace := rfl
@[simp] theorem State.accept_reads (v : Word) : (s.accept v).reads = s.reads := rfl
@[simp] theorem State.accept_prog (v : Word) : (s.accept v).prog = s.prog := rfl
@[simp] theorem State.accept_inputs (v : Word) : (s.accept v).inputs = s.inputs := rfl
@[simp] theorem State.accept_draws (v : Word) : (s.accept v).draws = s.draws := rfl

/-! `State.complete` -/

@[simp] theorem State.complete_params (c : Status) : (s.complete c).params = s.params := rfl
@[simp] theorem State.complete_busy (c : Status) : (s.complete c).busy = false := rfl
@[simp] theorem State.complete_valid (c : Status) : (s.complete c).valid = decide (c = .success) := rfl
@[simp] theorem State.complete_ovr (c : Status) : (s.complete c).ovr = s.ovr := rfl
@[simp] theorem State.complete_status (c : Status) : (s.complete c).status = c := rfl
@[simp] theorem State.complete_lastOp (c : Status) : (s.complete c).lastOp = s.lastOp := rfl
@[simp] theorem State.complete_opndRaw (c : Status) : (s.complete c).opndRaw = s.opndRaw := rfl
@[simp] theorem State.complete_data16 (c : Status) : (s.complete c).data16 = s.data16 := rfl
@[simp] theorem State.complete_dclass (c : Status) : (s.complete c).dclass = s.dclass := rfl
@[simp] theorem State.complete_celinReg (c : Status) : (s.complete c).celinReg = s.celinReg := rfl
@[simp] theorem State.complete_out (c : Status) : (s.complete c).out = s.out := rfl
@[simp] theorem State.complete_phase (c : Status) : (s.complete c).phase = .idle := rfl
@[simp] theorem State.complete_op (c : Status) : (s.complete c).op = s.op := rfl
@[simp] theorem State.complete_arg (c : Status) : (s.complete c).arg = s.arg := rfl
@[simp] theorem State.complete_opnd (c : Status) : (s.complete c).opnd = s.opnd := rfl
@[simp] theorem State.complete_celin (c : Status) : (s.complete c).celin = s.celin := rfl
@[simp] theorem State.complete_pc (c : Status) : (s.complete c).pc = s.pc := rfl
@[simp] theorem State.complete_tmp (c : Status) : (s.complete c).tmp = s.tmp := rfl
@[simp] theorem State.complete_pend (c : Status) : (s.complete c).pend = none := rfl
@[simp] theorem State.complete_resp (c : Status) : (s.complete c).resp = none := rfl
@[simp] theorem State.complete_trace (c : Status) : (s.complete c).trace = s.trace := rfl
@[simp] theorem State.complete_reads (c : Status) : (s.complete c).reads = s.reads := rfl
@[simp] theorem State.complete_prog (c : Status) : (s.complete c).prog = s.prog := rfl
@[simp] theorem State.complete_inputs (c : Status) : (s.complete c).inputs = s.inputs := rfl
@[simp] theorem State.complete_draws (c : Status) : (s.complete c).draws = s.draws := rfl

/-! `State.writeResult` -/

@[simp] theorem State.writeResult_params (d : Half) (c : Byte) : (s.writeResult d c).params = s.params := rfl
@[simp] theorem State.writeResult_busy (d : Half) (c : Byte) : (s.writeResult d c).busy = s.busy := rfl
@[simp] theorem State.writeResult_valid (d : Half) (c : Byte) : (s.writeResult d c).valid = s.valid := rfl
@[simp] theorem State.writeResult_ovr (d : Half) (c : Byte) : (s.writeResult d c).ovr = s.ovr := rfl
@[simp] theorem State.writeResult_status (d : Half) (c : Byte) : (s.writeResult d c).status = s.status := rfl
@[simp] theorem State.writeResult_lastOp (d : Half) (c : Byte) : (s.writeResult d c).lastOp = s.lastOp := rfl
@[simp] theorem State.writeResult_opndRaw (d : Half) (c : Byte) : (s.writeResult d c).opndRaw = s.opndRaw := rfl
@[simp] theorem State.writeResult_data16 (d : Half) (c : Byte) : (s.writeResult d c).data16 = d := rfl
@[simp] theorem State.writeResult_dclass (d : Half) (c : Byte) : (s.writeResult d c).dclass = c := rfl
@[simp] theorem State.writeResult_celinReg (d : Half) (c : Byte) : (s.writeResult d c).celinReg = s.celinReg := rfl
@[simp] theorem State.writeResult_out (d : Half) (c : Byte) : (s.writeResult d c).out = s.out := rfl
@[simp] theorem State.writeResult_phase (d : Half) (c : Byte) : (s.writeResult d c).phase = s.phase := rfl
@[simp] theorem State.writeResult_op (d : Half) (c : Byte) : (s.writeResult d c).op = s.op := rfl
@[simp] theorem State.writeResult_arg (d : Half) (c : Byte) : (s.writeResult d c).arg = s.arg := rfl
@[simp] theorem State.writeResult_opnd (d : Half) (c : Byte) : (s.writeResult d c).opnd = s.opnd := rfl
@[simp] theorem State.writeResult_celin (d : Half) (c : Byte) : (s.writeResult d c).celin = s.celin := rfl
@[simp] theorem State.writeResult_pc (d : Half) (c : Byte) : (s.writeResult d c).pc = s.pc := rfl
@[simp] theorem State.writeResult_tmp (d : Half) (c : Byte) : (s.writeResult d c).tmp = s.tmp := rfl
@[simp] theorem State.writeResult_pend (d : Half) (c : Byte) : (s.writeResult d c).pend = s.pend := rfl
@[simp] theorem State.writeResult_resp (d : Half) (c : Byte) : (s.writeResult d c).resp = s.resp := rfl
@[simp] theorem State.writeResult_trace (d : Half) (c : Byte) : (s.writeResult d c).trace = s.trace := rfl
@[simp] theorem State.writeResult_reads (d : Half) (c : Byte) : (s.writeResult d c).reads = s.reads := rfl
@[simp] theorem State.writeResult_prog (d : Half) (c : Byte) : (s.writeResult d c).prog = s.prog := rfl
@[simp] theorem State.writeResult_inputs (d : Half) (c : Byte) : (s.writeResult d c).inputs = s.inputs := rfl
@[simp] theorem State.writeResult_draws (d : Half) (c : Byte) : (s.writeResult d c).draws = s.draws := rfl

/-! `State.writeTemps` -/

@[simp] theorem State.writeTemps_params (c : Int) : (s.writeTemps c).params = s.params := rfl
@[simp] theorem State.writeTemps_busy (c : Int) : (s.writeTemps c).busy = s.busy := rfl
@[simp] theorem State.writeTemps_valid (c : Int) : (s.writeTemps c).valid = s.valid := rfl
@[simp] theorem State.writeTemps_ovr (c : Int) : (s.writeTemps c).ovr = s.ovr := rfl
@[simp] theorem State.writeTemps_status (c : Int) : (s.writeTemps c).status = s.status := rfl
@[simp] theorem State.writeTemps_lastOp (c : Int) : (s.writeTemps c).lastOp = s.lastOp := rfl
@[simp] theorem State.writeTemps_opndRaw (c : Int) : (s.writeTemps c).opndRaw = s.opndRaw := rfl
@[simp] theorem State.writeTemps_data16 (c : Int) : (s.writeTemps c).data16 = s.data16 := rfl
@[simp] theorem State.writeTemps_dclass (c : Int) : (s.writeTemps c).dclass = s.dclass := rfl
@[simp] theorem State.writeTemps_celinReg (c : Int) : (s.writeTemps c).celinReg = s.celinReg := rfl
@[simp] theorem State.writeTemps_phase (c : Int) : (s.writeTemps c).phase = s.phase := rfl
@[simp] theorem State.writeTemps_op (c : Int) : (s.writeTemps c).op = s.op := rfl
@[simp] theorem State.writeTemps_arg (c : Int) : (s.writeTemps c).arg = s.arg := rfl
@[simp] theorem State.writeTemps_opnd (c : Int) : (s.writeTemps c).opnd = s.opnd := rfl
@[simp] theorem State.writeTemps_celin (c : Int) : (s.writeTemps c).celin = s.celin := rfl
@[simp] theorem State.writeTemps_pc (c : Int) : (s.writeTemps c).pc = s.pc := rfl
@[simp] theorem State.writeTemps_tmp (c : Int) : (s.writeTemps c).tmp = s.tmp := rfl
@[simp] theorem State.writeTemps_pend (c : Int) : (s.writeTemps c).pend = s.pend := rfl
@[simp] theorem State.writeTemps_resp (c : Int) : (s.writeTemps c).resp = s.resp := rfl
@[simp] theorem State.writeTemps_trace (c : Int) : (s.writeTemps c).trace = s.trace := rfl
@[simp] theorem State.writeTemps_reads (c : Int) : (s.writeTemps c).reads = s.reads := rfl
@[simp] theorem State.writeTemps_prog (c : Int) : (s.writeTemps c).prog = s.prog := rfl
@[simp] theorem State.writeTemps_inputs (c : Int) : (s.writeTemps c).inputs = s.inputs := rfl
@[simp] theorem State.writeTemps_draws (c : Int) : (s.writeTemps c).draws = s.draws := rfl

/-! `State.writeRh` -/

@[simp] theorem State.writeRh_params (h : Nat) : (s.writeRh h).params = s.params := rfl
@[simp] theorem State.writeRh_busy (h : Nat) : (s.writeRh h).busy = s.busy := rfl
@[simp] theorem State.writeRh_valid (h : Nat) : (s.writeRh h).valid = s.valid := rfl
@[simp] theorem State.writeRh_ovr (h : Nat) : (s.writeRh h).ovr = s.ovr := rfl
@[simp] theorem State.writeRh_status (h : Nat) : (s.writeRh h).status = s.status := rfl
@[simp] theorem State.writeRh_lastOp (h : Nat) : (s.writeRh h).lastOp = s.lastOp := rfl
@[simp] theorem State.writeRh_opndRaw (h : Nat) : (s.writeRh h).opndRaw = s.opndRaw := rfl
@[simp] theorem State.writeRh_data16 (h : Nat) : (s.writeRh h).data16 = s.data16 := rfl
@[simp] theorem State.writeRh_dclass (h : Nat) : (s.writeRh h).dclass = s.dclass := rfl
@[simp] theorem State.writeRh_celinReg (h : Nat) : (s.writeRh h).celinReg = s.celinReg := rfl
@[simp] theorem State.writeRh_out (h : Nat) : (s.writeRh h).out = { s.out with rh := q32 (rhFx h) } := rfl
@[simp] theorem State.writeRh_phase (h : Nat) : (s.writeRh h).phase = s.phase := rfl
@[simp] theorem State.writeRh_op (h : Nat) : (s.writeRh h).op = s.op := rfl
@[simp] theorem State.writeRh_arg (h : Nat) : (s.writeRh h).arg = s.arg := rfl
@[simp] theorem State.writeRh_opnd (h : Nat) : (s.writeRh h).opnd = s.opnd := rfl
@[simp] theorem State.writeRh_celin (h : Nat) : (s.writeRh h).celin = s.celin := rfl
@[simp] theorem State.writeRh_pc (h : Nat) : (s.writeRh h).pc = s.pc := rfl
@[simp] theorem State.writeRh_tmp (h : Nat) : (s.writeRh h).tmp = s.tmp := rfl
@[simp] theorem State.writeRh_pend (h : Nat) : (s.writeRh h).pend = s.pend := rfl
@[simp] theorem State.writeRh_resp (h : Nat) : (s.writeRh h).resp = s.resp := rfl
@[simp] theorem State.writeRh_trace (h : Nat) : (s.writeRh h).trace = s.trace := rfl
@[simp] theorem State.writeRh_reads (h : Nat) : (s.writeRh h).reads = s.reads := rfl
@[simp] theorem State.writeRh_prog (h : Nat) : (s.writeRh h).prog = s.prog := rfl
@[simp] theorem State.writeRh_inputs (h : Nat) : (s.writeRh h).inputs = s.inputs := rfl
@[simp] theorem State.writeRh_draws (h : Nat) : (s.writeRh h).draws = s.draws := rfl

/-! `State.issue` -/

@[simp] theorem State.issue_params (r : Request) : (s.issue r).params = s.params := rfl
@[simp] theorem State.issue_busy (r : Request) : (s.issue r).busy = s.busy := rfl
@[simp] theorem State.issue_valid (r : Request) : (s.issue r).valid = s.valid := rfl
@[simp] theorem State.issue_ovr (r : Request) : (s.issue r).ovr = s.ovr := rfl
@[simp] theorem State.issue_status (r : Request) : (s.issue r).status = s.status := rfl
@[simp] theorem State.issue_lastOp (r : Request) : (s.issue r).lastOp = s.lastOp := rfl
@[simp] theorem State.issue_opndRaw (r : Request) : (s.issue r).opndRaw = s.opndRaw := rfl
@[simp] theorem State.issue_data16 (r : Request) : (s.issue r).data16 = s.data16 := rfl
@[simp] theorem State.issue_dclass (r : Request) : (s.issue r).dclass = s.dclass := rfl
@[simp] theorem State.issue_celinReg (r : Request) : (s.issue r).celinReg = s.celinReg := rfl
@[simp] theorem State.issue_out (r : Request) : (s.issue r).out = s.out := rfl
@[simp] theorem State.issue_phase (r : Request) : (s.issue r).phase = s.phase := rfl
@[simp] theorem State.issue_op (r : Request) : (s.issue r).op = s.op := rfl
@[simp] theorem State.issue_arg (r : Request) : (s.issue r).arg = s.arg := rfl
@[simp] theorem State.issue_opnd (r : Request) : (s.issue r).opnd = s.opnd := rfl
@[simp] theorem State.issue_celin (r : Request) : (s.issue r).celin = s.celin := rfl
@[simp] theorem State.issue_pc (r : Request) : (s.issue r).pc = s.pc := rfl
@[simp] theorem State.issue_tmp (r : Request) : (s.issue r).tmp = s.tmp := rfl
@[simp] theorem State.issue_pend (r : Request) : (s.issue r).pend = some r := rfl
@[simp] theorem State.issue_resp (r : Request) : (s.issue r).resp = none := rfl
@[simp] theorem State.issue_trace (r : Request) : (s.issue r).trace = s.trace := rfl
@[simp] theorem State.issue_reads (r : Request) : (s.issue r).reads = s.reads := rfl
@[simp] theorem State.issue_prog (r : Request) : (s.issue r).prog = s.prog := rfl
@[simp] theorem State.issue_inputs (r : Request) : (s.issue r).inputs = s.inputs := rfl
@[simp] theorem State.issue_draws (r : Request) : (s.issue r).draws = s.draws := rfl

/-! `State.respond` -/

@[simp] theorem State.respond_params (r : Request) (a : Answer) : (s.respond r a).params = s.params := rfl
@[simp] theorem State.respond_busy (r : Request) (a : Answer) : (s.respond r a).busy = s.busy := rfl
@[simp] theorem State.respond_valid (r : Request) (a : Answer) : (s.respond r a).valid = s.valid := rfl
@[simp] theorem State.respond_ovr (r : Request) (a : Answer) : (s.respond r a).ovr = s.ovr := rfl
@[simp] theorem State.respond_status (r : Request) (a : Answer) : (s.respond r a).status = s.status := rfl
@[simp] theorem State.respond_lastOp (r : Request) (a : Answer) : (s.respond r a).lastOp = s.lastOp := rfl
@[simp] theorem State.respond_opndRaw (r : Request) (a : Answer) : (s.respond r a).opndRaw = s.opndRaw := rfl
@[simp] theorem State.respond_data16 (r : Request) (a : Answer) : (s.respond r a).data16 = s.data16 := rfl
@[simp] theorem State.respond_dclass (r : Request) (a : Answer) : (s.respond r a).dclass = s.dclass := rfl
@[simp] theorem State.respond_celinReg (r : Request) (a : Answer) : (s.respond r a).celinReg = s.celinReg := rfl
@[simp] theorem State.respond_out (r : Request) (a : Answer) : (s.respond r a).out = s.out := rfl
@[simp] theorem State.respond_phase (r : Request) (a : Answer) : (s.respond r a).phase = s.phase := rfl
@[simp] theorem State.respond_op (r : Request) (a : Answer) : (s.respond r a).op = s.op := rfl
@[simp] theorem State.respond_arg (r : Request) (a : Answer) : (s.respond r a).arg = s.arg := rfl
@[simp] theorem State.respond_opnd (r : Request) (a : Answer) : (s.respond r a).opnd = s.opnd := rfl
@[simp] theorem State.respond_celin (r : Request) (a : Answer) : (s.respond r a).celin = s.celin := rfl
@[simp] theorem State.respond_pc (r : Request) (a : Answer) : (s.respond r a).pc = s.pc + 1 := rfl
@[simp] theorem State.respond_tmp (r : Request) (a : Answer) : (s.respond r a).tmp = s.tmp := rfl
@[simp] theorem State.respond_pend (r : Request) (a : Answer) : (s.respond r a).pend = none := rfl
@[simp] theorem State.respond_resp (r : Request) (a : Answer) : (s.respond r a).resp = some (responseTo r a) := rfl
@[simp] theorem State.respond_trace (r : Request) (a : Answer) : (s.respond r a).trace = s.trace ++ [(r, responseTo r a)] := rfl
@[simp] theorem State.respond_reads (r : Request) (a : Answer) : (s.respond r a).reads = s.reads := rfl
@[simp] theorem State.respond_prog (r : Request) (a : Answer) : (s.respond r a).prog = s.prog := rfl
@[simp] theorem State.respond_inputs (r : Request) (a : Answer) : (s.respond r a).inputs = s.inputs := rfl
@[simp] theorem State.respond_draws (r : Request) (a : Answer) : (s.respond r a).draws = s.draws := rfl

/-! `State.hostRead` -/

@[simp] theorem State.hostRead_params (off : Offset) : (s.hostRead off).params = s.params := rfl
@[simp] theorem State.hostRead_busy (off : Offset) : (s.hostRead off).busy = s.busy := rfl
@[simp] theorem State.hostRead_valid (off : Offset) : (s.hostRead off).valid = s.valid := rfl
@[simp] theorem State.hostRead_ovr (off : Offset) : (s.hostRead off).ovr = s.ovr := rfl
@[simp] theorem State.hostRead_status (off : Offset) : (s.hostRead off).status = s.status := rfl
@[simp] theorem State.hostRead_lastOp (off : Offset) : (s.hostRead off).lastOp = s.lastOp := rfl
@[simp] theorem State.hostRead_opndRaw (off : Offset) : (s.hostRead off).opndRaw = s.opndRaw := rfl
@[simp] theorem State.hostRead_data16 (off : Offset) : (s.hostRead off).data16 = s.data16 := rfl
@[simp] theorem State.hostRead_dclass (off : Offset) : (s.hostRead off).dclass = s.dclass := rfl
@[simp] theorem State.hostRead_celinReg (off : Offset) : (s.hostRead off).celinReg = s.celinReg := rfl
@[simp] theorem State.hostRead_out (off : Offset) : (s.hostRead off).out = s.out := rfl
@[simp] theorem State.hostRead_phase (off : Offset) : (s.hostRead off).phase = s.phase := rfl
@[simp] theorem State.hostRead_op (off : Offset) : (s.hostRead off).op = s.op := rfl
@[simp] theorem State.hostRead_arg (off : Offset) : (s.hostRead off).arg = s.arg := rfl
@[simp] theorem State.hostRead_opnd (off : Offset) : (s.hostRead off).opnd = s.opnd := rfl
@[simp] theorem State.hostRead_celin (off : Offset) : (s.hostRead off).celin = s.celin := rfl
@[simp] theorem State.hostRead_pc (off : Offset) : (s.hostRead off).pc = s.pc := rfl
@[simp] theorem State.hostRead_tmp (off : Offset) : (s.hostRead off).tmp = s.tmp := rfl
@[simp] theorem State.hostRead_pend (off : Offset) : (s.hostRead off).pend = s.pend := rfl
@[simp] theorem State.hostRead_resp (off : Offset) : (s.hostRead off).resp = s.resp := rfl
@[simp] theorem State.hostRead_trace (off : Offset) : (s.hostRead off).trace = s.trace := rfl
@[simp] theorem State.hostRead_reads (off : Offset) : (s.hostRead off).reads = s.reads ++ [(off, s.memRead off)] := rfl
@[simp] theorem State.hostRead_prog (off : Offset) : (s.hostRead off).prog = s.prog := rfl
@[simp] theorem State.hostRead_inputs (off : Offset) : (s.hostRead off).inputs = s.inputs := rfl
@[simp] theorem State.hostRead_draws (off : Offset) : (s.hostRead off).draws = s.draws := rfl

/-! `State.blockReset` -/

@[simp] theorem State.blockReset_params : s.blockReset.params = s.params := rfl
@[simp] theorem State.blockReset_busy : s.blockReset.busy = false := rfl
@[simp] theorem State.blockReset_valid : s.blockReset.valid = false := rfl
@[simp] theorem State.blockReset_ovr : s.blockReset.ovr = false := rfl
@[simp] theorem State.blockReset_status : s.blockReset.status = .success := rfl
@[simp] theorem State.blockReset_lastOp : s.blockReset.lastOp = 0#8 := rfl
@[simp] theorem State.blockReset_opndRaw : s.blockReset.opndRaw = 0#16 := rfl
@[simp] theorem State.blockReset_data16 : s.blockReset.data16 = 0#16 := rfl
@[simp] theorem State.blockReset_dclass : s.blockReset.dclass = 0#8 := rfl
@[simp] theorem State.blockReset_celinReg : s.blockReset.celinReg = 0#64 := rfl
@[simp] theorem State.blockReset_out : s.blockReset.out = OutFile.zero := rfl
@[simp] theorem State.blockReset_phase : s.blockReset.phase = .idle := rfl
@[simp] theorem State.blockReset_op : s.blockReset.op = 0#8 := rfl
@[simp] theorem State.blockReset_arg : s.blockReset.arg = 0#8 := rfl
@[simp] theorem State.blockReset_opnd : s.blockReset.opnd = 0#16 := rfl
@[simp] theorem State.blockReset_celin : s.blockReset.celin = 0#64 := rfl
@[simp] theorem State.blockReset_pc : s.blockReset.pc = 0 := rfl
@[simp] theorem State.blockReset_tmp : s.blockReset.tmp = 0#8 := rfl
@[simp] theorem State.blockReset_pend : s.blockReset.pend = none := rfl
@[simp] theorem State.blockReset_resp : s.blockReset.resp = none := rfl
@[simp] theorem State.blockReset_trace : s.blockReset.trace = s.trace := rfl
@[simp] theorem State.blockReset_reads : s.blockReset.reads = s.reads := rfl
@[simp] theorem State.blockReset_prog : s.blockReset.prog = s.prog := rfl
@[simp] theorem State.blockReset_inputs : s.blockReset.inputs = s.inputs := rfl
@[simp] theorem State.blockReset_draws : s.blockReset.draws = s.draws := rfl

@[simp] theorem State.writeTemps_out_cel (c : Int) : (s.writeTemps c).out.cel = q32 c := rfl
@[simp] theorem State.writeTemps_out_kel (c : Int) : (s.writeTemps c).out.kel = q32 (scaleFx .kel c) := rfl
@[simp] theorem State.writeTemps_out_fah (c : Int) : (s.writeTemps c).out.fah = q32 (scaleFx .fah c) := rfl
@[simp] theorem State.writeTemps_out_ran (c : Int) : (s.writeTemps c).out.ran = q32 (scaleFx .ran c) := rfl
@[simp] theorem State.writeTemps_out_new (c : Int) : (s.writeTemps c).out.new = q32 (scaleFx .new c) := rfl
@[simp] theorem State.writeTemps_out_del (c : Int) : (s.writeTemps c).out.del = q32 (scaleFx .del c) := rfl
@[simp] theorem State.writeTemps_out_rea (c : Int) : (s.writeTemps c).out.rea = q32 (scaleFx .rea c) := rfl
@[simp] theorem State.writeTemps_out_rom (c : Int) : (s.writeTemps c).out.rom = q32 (scaleFx .rom c) := rfl
@[simp] theorem State.writeTemps_out_rh (c : Int) : (s.writeTemps c).out.rh = s.out.rh := rfl

end Sys2Proof.Machine
end

