-- ==== Sys2Proof/Laws/Ops.lean ====
section
/-! SUPPORT. What each shared operation can do, said once: if it answers a next state, then it is one of
the states listed. Proofs cite these lemmas and do not unfold the operations. -/

namespace Sys2Proof.Machine

variable {s t : State}

theorem raiseStatus_eq (code : Status) (s : State) : raiseStatus code s = .next (s.complete code) := rfl

theorem finish_eq (s : State) : finish s = .next (s.complete .success) := rfl

/-- A transport status is SUCCESS as a code only if it is SUCCESS on the bus (R601). -/
theorem transportStatus_eq_success {st : BusStatus} : transportStatus st = .success ↔ st = .success := by
  cases st <;> simp [transportStatus]

/-- `check(st)` after a write: the body goes on, or the command ends with the status. -/
theorem afterWrite_next {rest : Host.Outcome State Fault Refusal} (h : afterWrite s rest = .next t) :
    ∃ st, s.resp = some (.writeDone st) ∧
      ((st = .success ∧ rest = .next t) ∨ (st ≠ .success ∧ t = s.complete (transportStatus st))) := by
  unfold afterWrite at h
  split at h
  case h_1 st hr =>
    refine ⟨st, hr, ?_⟩
    split at h
    · exact .inl ⟨by assumption, h⟩
    · cases h; exact .inr ⟨by assumption, rfl⟩
  all_goals cases h

/-- `check(st)` after a read of one byte. -/
theorem afterRead1_next {rest : Byte → Host.Outcome State Fault Refusal} (h : afterRead1 s rest = .next t) :
    ∃ st bs, s.resp = some (.readDone st bs) ∧
      ((st = .success ∧ ∃ b0, bs = [b0] ∧ rest b0 = .next t) ∨
        (st ≠ .success ∧ t = s.complete (transportStatus st))) := by
  unfold afterRead1 at h
  split at h
  case h_1 st bs hr =>
    refine ⟨st, bs, hr, ?_⟩
    split at h
    · split at h
      · exact .inl ⟨by assumption, _, rfl, h⟩
      · cases h
    · cases h; exact .inr ⟨by assumption, rfl⟩
  all_goals cases h

/-- `check(st)` after a read of two bytes. -/
theorem afterRead2_next {rest : Byte → Byte → Host.Outcome State Fault Refusal} (h : afterRead2 s rest = .next t) :
    ∃ st bs, s.resp = some (.readDone st bs) ∧
      ((st = .success ∧ ∃ b0 b1, bs = [b0, b1] ∧ rest b0 b1 = .next t) ∨
        (st ≠ .success ∧ t = s.complete (transportStatus st))) := by
  unfold afterRead2 at h
  split at h
  case h_1 st bs hr =>
    refine ⟨st, bs, hr, ?_⟩
    split at h
    · split at h
      · exact .inl ⟨by assumption, _, _, rfl, h⟩
      · cases h
    · cases h; exact .inr ⟨by assumption, rfl⟩
  all_goals cases h

theorem afterWrite_success (rest : Host.Outcome State Fault Refusal) (h : s.resp = some (.writeDone .success)) :
    afterWrite s rest = rest := by simp [afterWrite, h]

theorem afterWrite_failure (rest : Host.Outcome State Fault Refusal) {st : BusStatus}
    (h : s.resp = some (.writeDone st)) (hst : st ≠ .success) :
    afterWrite s rest = .next (s.complete (transportStatus st)) := by simp [afterWrite, h, hst, raiseStatus]

theorem afterRead1_success (rest : Byte → Host.Outcome State Fault Refusal) {b0 : Byte}
    (h : s.resp = some (.readDone .success [b0])) : afterRead1 s rest = rest b0 := by simp [afterRead1, h]

theorem afterRead1_failure (rest : Byte → Host.Outcome State Fault Refusal) {st : BusStatus} {bs : List Byte}
    (h : s.resp = some (.readDone st bs)) (hst : st ≠ .success) :
    afterRead1 s rest = .next (s.complete (transportStatus st)) := by simp [afterRead1, h, hst, raiseStatus]

theorem afterRead2_success (rest : Byte → Byte → Host.Outcome State Fault Refusal) {b0 b1 : Byte}
    (h : s.resp = some (.readDone .success [b0, b1])) : afterRead2 s rest = rest b0 b1 := by simp [afterRead2, h]

theorem afterRead2_failure (rest : Byte → Byte → Host.Outcome State Fault Refusal) {st : BusStatus} {bs : List Byte}
    (h : s.resp = some (.readDone st bs)) (hst : st ≠ .success) :
    afterRead2 s rest = .next (s.complete (transportStatus st)) := by simp [afterRead2, h, hst, raiseStatus]

/-- Everything one sequencer step of a command can leave: a new request (a read-modify-write also keeps the
byte it read), an end with an error and no result, or an end with SUCCESS and results. -/
inductive BodyStep (s : State) : State → Prop
  | asks (x : Byte) (r : Request) : BodyStep s (State.issue r { s with tmp := x })
  | fails (x : Byte) (code : Status) (h : code ≠ .success) : BodyStep s (State.complete code { s with tmp := x })
  | succeeds (d : Half) (c : Byte) (o : OutFile) :
      BodyStep s (State.complete .success { s with data16 := d, dclass := c, out := o })

/-- The end of a command on a failed transaction is a failing body step. -/
theorem BodyStep.transport {st : BusStatus} (h : st ≠ .success) : BodyStep s (s.complete (transportStatus st)) :=
  .fails s.tmp _ (by rwa [Ne, transportStatus_eq_success])

/-- What the results of a command may write: RESULT and OUT. -/
def WritesResults (f : State → State) : Prop :=
  ∀ s : State, ∃ d c o, f s = { s with data16 := d, dclass := c, out := o }

theorem writesResults_writeResult (d : Half) (c : Byte) : WritesResults (State.writeResult d c) :=
  fun s => ⟨d, c, s.out, rfl⟩

theorem writesResults_writeTemps (c : Int) : WritesResults (State.writeTemps c) :=
  fun s => ⟨s.data16, s.dclass, _, rfl⟩

theorem writesResults_writeRh (h : Nat) : WritesResults (State.writeRh h) :=
  fun s => ⟨s.data16, s.dclass, _, rfl⟩

/-- Finishing with results is a succeeding body step. -/
theorem BodyStep.finish {f : State → State} (hf : WritesResults f) : BodyStep s ((f s).complete .success) := by
  obtain ⟨d, c, o, h⟩ := hf s
  rw [h]; exact .succeeds d c o

theorem read1Body_next {cmd : List Byte} {results : Byte → State → State} (hf : ∀ b, WritesResults (results b))
    (h : read1Body cmd results s = .next t) : BodyStep s t := by
  unfold read1Body at h
  split at h
  · cases h; exact .asks s.tmp _
  · obtain ⟨st, -, ⟨-, h⟩ | ⟨hst, rfl⟩⟩ := afterWrite_next h
    · cases h; exact .asks s.tmp _
    · exact .transport hst
  · obtain ⟨st, bs, -, ⟨-, b0, -, h⟩ | ⟨hst, rfl⟩⟩ := afterRead1_next h
    · cases h; exact .finish (hf b0)
    · exact .transport hst
  · cases h

theorem read2Body_next {cmd : List Byte} {results : Byte → Byte → State → State}
    (hf : ∀ b0 b1, WritesResults (results b0 b1)) (h : read2Body cmd results s = .next t) : BodyStep s t := by
  unfold read2Body at h
  split at h
  · cases h; exact .asks s.tmp _
  · obtain ⟨st, -, ⟨-, h⟩ | ⟨hst, rfl⟩⟩ := afterWrite_next h
    · cases h; exact .asks s.tmp _
    · exact .transport hst
  · obtain ⟨st, bs, -, ⟨-, b0, b1, -, h⟩ | ⟨hst, rfl⟩⟩ := afterRead2_next h
    · cases h; exact .finish (hf b0 b1)
    · exact .transport hst
  · cases h

theorem writeBody_next {bytes : List Byte} {d : Half} (h : writeBody bytes d s = .next t) : BodyStep s t := by
  unfold writeBody at h
  split at h
  · cases h; exact .asks s.tmp _
  · obtain ⟨st, -, ⟨-, h⟩ | ⟨hst, rfl⟩⟩ := afterWrite_next h
    · cases h; exact .finish (writesResults_writeResult _ _)
    · exact .transport hst
  · cases h

theorem rmwBody_next {rc wc : Byte} {refusal : Byte → Option Status} {new : Byte → Byte}
    (hr : ∀ b, refusal b ≠ some .success) (h : rmwBody rc wc refusal new s = .next t) : BodyStep s t := by
  unfold rmwBody at h
  split at h
  · cases h; exact .asks s.tmp _
  · obtain ⟨st, -, ⟨-, h⟩ | ⟨hst, rfl⟩⟩ := afterWrite_next h
    · cases h; exact .asks s.tmp _
    · exact .transport hst
  · obtain ⟨st, bs, -, ⟨-, b0, -, h⟩ | ⟨hst, rfl⟩⟩ := afterRead1_next h
    · split at h
      · rename_i code hc
        cases h; exact .fails b0 code (fun he => hr b0 (he ▸ hc))
      · cases h; exact .asks b0 _
    · exact .transport hst
  · obtain ⟨st, -, ⟨-, h⟩ | ⟨hst, rfl⟩⟩ := afterWrite_next h
    · cases h; exact .finish (writesResults_writeResult _ _)
    · exact .transport hst
  · cases h

theorem validated_next {illegal : Bool} {code : Status} {body : State → Host.Outcome State Fault Refusal}
    (hc : code ≠ .success) (hb : body s = .next t → BodyStep s t) (h : validated illegal code body s = .next t) :
    BodyStep s t := by
  unfold validated at h
  split at h
  · cases h; exact .fails s.tmp code hc
  · exact hb h

/-- One sequencer step of any command: everything it can leave, from any state. -/
theorem exec_next {i : Instr} (h : exec i s = .next t) : BodyStep s t := by
  cases i with
  | measRh =>
    exact read2Body_next (fun b0 b1 u => ⟨_, _, _, rfl⟩) h
  | measT => exact read2Body_next (fun b0 b1 u => ⟨_, _, _, rfl⟩) h
  | readSerial => exact read2Body_next (fun _ _ => writesResults_writeResult _ _) h
  | readDevid => exact read1Body_next (fun b0 u => ⟨_, _, _, rfl⟩) h
  | readFw => exact read1Body_next (fun b0 u => ⟨_, _, _, rfl⟩) h
  | softReset => exact writeBody_next h
  | readUser => exact read1Body_next (fun _ => writesResults_writeResult _ _) h
  | writeUser arg => exact writeBody_next h
  | readHtr => exact read1Body_next (fun _ => writesResults_writeResult _ _) h
  | writeHtr arg => exact writeBody_next h
  | heaterOn =>
    refine rmwBody_next (refusal := fun b => if voltageLow b then some .voltageTooLow else none) (fun b => ?_) h
    split <;> simp
  | heaterOff => exact rmwBody_next (refusal := fun _ => none) (fun _ => by simp) h
  | setHlvl arg => exact validated_next (by decide) (rmwBody_next (refusal := fun _ => none) fun _ => by simp) h
  | setRes arg => exact validated_next (by decide) (rmwBody_next (refusal := fun _ => none) fun _ => by simp) h
  | cvtT => cases h; exact .finish (writesResults_writeTemps _)
  | cvtRh => cases h; exact .finish (writesResults_writeRh _)
  | cvtC => cases h; exact .finish (writesResults_writeTemps _)

/-- The transport's event: it answers the outstanding request, or nothing happens. -/
theorem transportStep_cases (a : Answer) (s : State) :
    (∃ r, s.pend = some r ∧ lawfulAnswer r a = true ∧ s.transportStep a = s.respond r a) ∨
      s.transportStep a = s := by
  unfold State.transportStep
  split
  · split
    · exact .inl ⟨_, by assumption, by assumption, rfl⟩
    · exact .inr rfl
  · exact .inr rfl

/-- A lawful answer makes a response that answers the request (R213 to R215). -/
theorem answersRequest_responseTo (r : Request) (a : Answer) (h : lawfulAnswer r a = true) :
    answersRequest r (responseTo r a) = true := by
  cases r with
  | write => rfl
  | read _ n => exact h

/-- A host write: accept, overrun, a STAT write, an operand write, or nothing. -/
theorem memWrite_cases (off : Offset) (v : Word) (s : State) :
    (wordIndex off = 0 ∧ s.busy = false ∧ s.memWrite off v = s.accept v) ∨
    (wordIndex off = 0 ∧ s.busy = true ∧ s.memWrite off v = s.setOvr) ∨
    (wordIndex off = 1 ∧ s.memWrite off v = s.writeStat v) ∨
    (wordIndex off = 2 ∧ s.memWrite off v = { s with opndRaw := v.extractLsb' 0 16 }) ∨
    (∃ d, (wordIndex off = 4 ∨ wordIndex off = 5) ∧ s.memWrite off v = { s with celinReg := d }) ∨
    ((wordIndex off = 3 ∨ 6 ≤ wordIndex off) ∧ s.memWrite off v = s) := by
  unfold State.memWrite State.writeCmd
  split
  · cases hb : s.busy <;> simp_all
  · simp_all
  · simp_all
  · exact .inr (.inr (.inr (.inr (.inl ⟨_, .inl (by assumption), rfl⟩))))
  · exact .inr (.inr (.inr (.inr (.inl ⟨_, .inr (by assumption), rfl⟩))))
  · rename_i h0 h1 h2 h4 h5
    refine .inr (.inr (.inr (.inr (.inr ⟨?_, rfl⟩))))
    generalize wordIndex off = n at *
    have : n ≠ 0 := fun e => h0 e
    have : n ≠ 1 := fun e => h1 e
    have : n ≠ 2 := fun e => h2 e
    have : n ≠ 4 := fun e => h4 e
    have : n ≠ 5 := fun e => h5 e
    omega

/-- The index of the word an offset reaches is the offset divided by four (R200). -/
theorem wordIndex_eq (off : Offset) : wordIndex off = off.toNat / 4 := by
  simp only [wordIndex, BitVec.extractLsb'_toNat, Nat.shiftRight_eq_div_pow]
  omega

/-- A step of the host's program: a write and the rest of the program, a recorded read, or nothing. -/
theorem hostProgramStep_cases (s : State) :
    (∃ off v p, s.hostProgramStep = { (s.memWrite off v) with prog := p }) ∨
    (∃ off p, s.hostProgramStep = { (s.hostRead off) with prog := p }) ∨
    s.hostProgramStep = s := by
  unfold State.hostProgramStep
  split
  · exact .inr (.inr rfl)
  · exact .inl ⟨_, _, _, rfl⟩
  · exact .inl ⟨_, _, _, rfl⟩
  · exact .inr (.inl ⟨_, _, rfl⟩)
  · exact .inr (.inl ⟨_, _, rfl⟩)

/-- The sequencer's event: a step of the latched command, its end with ILLEGAL_OPCODE, or nothing when it
is not enabled (R132, R604). -/
theorem sequencerStep_cases (s : State) :
    (s.phase = .run ∧ s.pend = none ∧
      ((∃ i, decodeCommand s.op s.arg = .ok i ∧ sequencerStep s = exec i s) ∨
        (∃ op, decodeCommand s.op s.arg = .error (.unassigned op) ∧
          sequencerStep s = .next (s.complete .illegalOpcode)))) ∨
    ((s.phase = .idle ∨ s.pend ≠ none) ∧ sequencerStep s = .next s) := by
  unfold sequencerStep State.sequencerEnabled
  cases hp : s.phase <;> cases hq : s.pend <;> simp
  unfold runLatched
  cases hd : decodeCommand s.op s.arg with
  | ok i => exact .inl ⟨i, rfl, rfl⟩
  | error e => cases e; exact .inr ⟨⟨_, rfl⟩, rfl⟩

/-- What taking the next event changes: only the list of coming events and the count of drawn ones. -/
theorem nextEvent_cases (s : State) : ∃ l n, s.nextEvent.2 = { s with inputs := l, draws := n } := by
  unfold State.nextEvent
  split
  · exact ⟨_, s.draws, rfl⟩
  · exact ⟨s.inputs, _, rfl⟩

/-- When an event is listed, it comes next. -/
theorem nextEvent_listed {e : Event} {rest : List Event} (h : s.inputs = e :: rest) :
    s.nextEvent = (e, { s with inputs := rest }) := by
  simp [State.nextEvent, h]

/-- A step on a listed event. -/
theorem step_listed {e : Event} {rest : List Event} (h : s.inputs = e :: rest) :
    step s = eventStep e { s with inputs := rest } := by
  simp [step, nextEvent_listed h]

end Sys2Proof.Machine
end

