-- ==== Sys2Proof/Laws/PerInstr.lean ====
section
/-! SUPPORT. A statement about every command as syntax, one lemma per constructor. -/

namespace Sys2Proof.Laws.EncodingFields

/-- The fields of a command's word are where 30_encoding.md R300 puts them: OP in bits 7:0, ARG in bits
15:8, and zeros in the ignored bits 31:16 (R310). -/
def Statement (i : Instr) : Prop :=
  opField (encode i) = i.opcode ∧ argField (encode i) = i.argByte ∧ (encode i).extractLsb' 16 16 = 0#16

/-- The fields of any command word, whatever the opcode and the argument. -/
theorem commandWord_fields (op arg : Byte) :
    opField (commandWord op arg) = op ∧ argField (commandWord op arg) = arg ∧
      (commandWord op arg).extractLsb' 16 16 = 0#16 := by
  refine ⟨?_, ?_, ?_⟩ <;> ext k hk <;>
    simp only [opField, argField, commandWord, BitVec.getElem_extractLsb', BitVec.getLsbD_append] <;>
    simp <;> grind

theorem measRh : Statement .measRh := commandWord_fields _ _
theorem measT : Statement .measT := commandWord_fields _ _
theorem readSerial : Statement .readSerial := commandWord_fields _ _
theorem readDevid : Statement .readDevid := commandWord_fields _ _
theorem readFw : Statement .readFw := commandWord_fields _ _
theorem softReset : Statement .softReset := commandWord_fields _ _
theorem readUser : Statement .readUser := commandWord_fields _ _
theorem writeUser (arg : Byte) : Statement (.writeUser arg) := commandWord_fields _ _
theorem readHtr : Statement .readHtr := commandWord_fields _ _
theorem writeHtr (arg : Byte) : Statement (.writeHtr arg) := commandWord_fields _ _
theorem heaterOn : Statement .heaterOn := commandWord_fields _ _
theorem heaterOff : Statement .heaterOff := commandWord_fields _ _
theorem setHlvl (arg : Byte) : Statement (.setHlvl arg) := commandWord_fields _ _
theorem setRes (arg : Byte) : Statement (.setRes arg) := commandWord_fields _ _
theorem cvtT : Statement .cvtT := commandWord_fields _ _
theorem cvtRh : Statement .cvtRh := commandWord_fields _ _
theorem cvtC : Statement .cvtC := commandWord_fields _ _

end Sys2Proof.Laws.EncodingFields
end

