-- ==== Sys2Proof/Laws/Step.lean ====
section
/-! SUPPORT. One step of the machine, inverted once: every next state it can leave, by the event that comes
next. The four fields of the agents outside the block are set apart with `State.env`. -/

namespace Sys2Proof.Machine

/-- `s` with other values in the fields that belong to the agents outside the block. -/
def State.env (l : List Event) (n : Nat) (p : List HostStmt) (rd : List (Offset × Word)) (s : State) : State :=
  { s with inputs := l, draws := n, prog := p, reads := rd }

section
variable (s : State) (l : List Event) (n : Nat) (p : List HostStmt) (rd : List (Offset × Word))

@[simp] theorem State.env_params : (s.env l n p rd).params = s.params := rfl
@[simp] theorem State.env_busy : (s.env l n p rd).busy = s.busy := rfl
@[simp] theorem State.env_valid : (s.env l n p rd).valid = s.valid := rfl
@[simp] theorem State.env_ovr : (s.env l n p rd).ovr = s.ovr := rfl
@[simp] theorem State.env_status : (s.env l n p rd).status = s.status := rfl
@[simp] theorem State.env_lastOp : (s.env l n p rd).lastOp = s.lastOp := rfl
@[simp] theorem State.env_opndRaw : (s.env l n p rd).opndRaw = s.opndRaw := rfl
@[simp] theorem State.env_data16 : (s.env l n p rd).data16 = s.data16 := rfl
@[simp] theorem State.env_dclass : (s.env l n p rd).dclass = s.dclass := rfl
@[simp] theorem State.env_celinReg : (s.env l n p rd).celinReg = s.celinReg := rfl
@[simp] theorem State.env_out : (s.env l n p rd).out = s.out := rfl
@[simp] theorem State.env_phase : (s.env l n p rd).phase = s.phase := rfl
@[simp] theorem State.env_op : (s.env l n p rd).op = s.op := rfl
@[simp] theorem State.env_arg : (s.env l n p rd).arg = s.arg := rfl
@[simp] theorem State.env_opnd : (s.env l n p rd).opnd = s.opnd := rfl
@[simp] theorem State.env_celin : (s.env l n p rd).celin = s.celin := rfl
@[simp] theorem State.env_pc : (s.env l n p rd).pc = s.pc := rfl
@[simp] theorem State.env_tmp : (s.env l n p rd).tmp = s.tmp := rfl
@[simp] theorem State.env_pend : (s.env l n p rd).pend = s.pend := rfl
@[simp] theorem State.env_resp : (s.env l n p rd).resp = s.resp := rfl
@[simp] theorem State.env_trace : (s.env l n p rd).trace = s.trace := rfl
@[simp] theorem State.env_reads : (s.env l n p rd).reads = rd := rfl
@[simp] theorem State.env_prog : (s.env l n p rd).prog = p := rfl
@[simp] theorem State.env_inputs : (s.env l n p rd).inputs = l := rfl
@[simp] theorem State.env_draws : (s.env l n p rd).draws = n := rfl

end

/-- The write that a host's program makes next, if its next statement writes (30_encoding.md R311). -/
def programWrite : List HostStmt → Option (Offset × Word)
  | .cmd c :: _ => some (HostReg.offset .cmd, c.word)
  | .wr r v :: _ => some (r.offset, v)
  | .rd _ :: _ => none
  | .wait :: _ => none
  | [] => none

/-- The write an event makes, if it makes one. -/
def hostWriteOf (s : State) : Event → Option (Offset × Word)
  | .hostWrite off v => some (off, v)
  | .hostProgram => programWrite s.prog
  | .hostRead _ => none
  | .sequencer => none
  | .transport _ => none
  | .lateAnswer _ => none
  | .blockReset => none

/-- Everything a step can leave, apart from the fields of the agents outside the block. -/
inductive StepCase (s : State) : Event → State → Prop
  /-- the sequencer runs its body on -/
  | body (t : State) (hr : s.phase = .run) (hp : s.pend = none) (h : BodyStep s t) : StepCase s .sequencer t
  /-- the transport answers -/
  | answer (r : Request) (a : Answer) (hp : s.pend = some r) (hl : lawfulAnswer r a = true) :
      StepCase s (.transport a) (s.respond r a)
  /-- the block is reset -/
  | reset : StepCase s .blockReset s.blockReset
  /-- the host writes CMD of an idle block -/
  | accept (e : Event) (off : Offset) (v : Word) (h : hostWriteOf s e = some (off, v))
      (ho : off.toNat / 4 = 0) (hb : s.busy = false) : StepCase s e (s.accept v)
  /-- the host writes CMD of a busy block -/
  | overrun (e : Event) (off : Offset) (v : Word) (h : hostWriteOf s e = some (off, v))
      (ho : off.toNat / 4 = 0) (hb : s.busy = true) : StepCase s e s.setOvr
  /-- the host writes STAT -/
  | stat (e : Event) (off : Offset) (v : Word) (h : hostWriteOf s e = some (off, v))
      (ho : off.toNat / 4 = 1) : StepCase s e (s.writeStat v)
  /-- the host writes another offset: at most OPND or CELIN change -/
  | operand (e : Event) (off : Offset) (v : Word) (h : hostWriteOf s e = some (off, v))
      (ho : 2 ≤ off.toNat / 4) (a : Half) (c : Dword) : StepCase s e { s with opndRaw := a, celinReg := c }
  /-- the event writes nothing: a read, a late answer, or a step that is not enabled -/
  | quiet (e : Event) (h : hostWriteOf s e = none) (hr : e ≠ .blockReset) : StepCase s e s

/-- A host write as a case of a step. -/
theorem memWrite_stepCase {s : State} {e : Event} {off : Offset} {v : Word} (h : hostWriteOf s e = some (off, v)) :
    StepCase s e (s.memWrite off v) := by
  have hi := wordIndex_eq off
  rcases memWrite_cases off v s with ⟨ho, hb, he⟩ | ⟨ho, hb, he⟩ | ⟨ho, he⟩ | ⟨ho, he⟩ | ⟨d, ho, he⟩ | ⟨ho, he⟩ <;> rw [he]
  · exact .accept e off v h (by omega) hb
  · exact .overrun e off v h (by omega) hb
  · exact .stat e off v h (by omega)
  · exact .operand e off v h (by omega) _ s.celinReg
  · exact .operand e off v h (by omega) s.opndRaw d
  · exact .operand e off v h (by omega) s.opndRaw s.celinReg

/-- A body step of a state that differs in the environment's fields. -/
theorem BodyStep.of_env {s t : State} {l : List Event} {n : Nat} {p : List HostStmt} {rd : List (Offset × Word)}
    (h : BodyStep (s.env l n p rd) t) : ∃ u, BodyStep s u ∧ t = u.env l n p rd := by
  cases h with
  | asks x r => exact ⟨_, .asks x r, rfl⟩
  | fails x code hc => exact ⟨_, .fails x code hc, rfl⟩
  | succeeds d c o => exact ⟨_, .succeeds d c o, rfl⟩

/-- A host write records nothing. -/
theorem memWrite_reads (s : State) (off : Offset) (v : Word) : (s.memWrite off v).reads = s.reads := by
  rcases memWrite_cases off v s with ⟨-, -, h⟩ | ⟨-, -, h⟩ | ⟨-, h⟩ | ⟨-, h⟩ | ⟨d, -, h⟩ | ⟨-, h⟩ <;> rw [h] <;> rfl

/-- The host's accesses do not look at the environment's fields. -/
theorem memWrite_env (s : State) (l : List Event) (n : Nat) (p : List HostStmt) (rd : List (Offset × Word))
    (off : Offset) (v : Word) : (s.env l n p rd).memWrite off v = (s.memWrite off v).env l n p rd := by
  unfold State.memWrite State.writeCmd
  split <;> first | rfl | (cases hb : s.busy <;> simp [hb] <;> rfl)

/-- A step of the host's program as a case of a step. -/
theorem hostProgramStep_stepCase (s : State) (l : List Event) (n : Nat) :
    ∃ u p rd, StepCase s .hostProgram u ∧ (s.env l n s.prog s.reads).hostProgramStep = u.env l n p rd := by
  have quiet : hostWriteOf s .hostProgram = none → StepCase s .hostProgram s := fun h => .quiet _ h (by simp)
  unfold State.hostProgramStep
  rw [State.env_prog]
  cases hp : s.prog with
  | nil => exact ⟨s, s.prog, s.reads, quiet (by simp [hostWriteOf, programWrite, hp]), by rw [hp]⟩
  | cons st rest =>
    cases st with
    | cmd c =>
      have hw : hostWriteOf s .hostProgram = some (HostReg.offset .cmd, c.word) := by simp [hostWriteOf, programWrite, hp]
      refine ⟨_, rest, (s.memWrite (HostReg.offset .cmd) c.word).reads, memWrite_stepCase hw, ?_⟩
      simp only [memWrite_env]; rw [memWrite_reads]; rfl
    | wr r v =>
      have hw : hostWriteOf s .hostProgram = some (r.offset, v) := by simp [hostWriteOf, programWrite, hp]
      refine ⟨_, rest, (s.memWrite r.offset v).reads, memWrite_stepCase hw, ?_⟩
      simp only [memWrite_env]; rw [memWrite_reads]; rfl
    | rd r => exact ⟨s, rest, _, quiet (by simp [hostWriteOf, programWrite, hp]), rfl⟩
    | wait => exact ⟨s, _, _, quiet (by simp [hostWriteOf, programWrite, hp]), rfl⟩

/-- The event's own effect, from a state whose coming events are already taken off. -/
theorem eventStep_cases {s t : State} {e : Event} {l : List Event} {n : Nat}
    (h : eventStep e (s.env l n s.prog s.reads) = .next t) :
    ∃ u p rd, StepCase s e u ∧ t = u.env l n p rd := by
  cases e with
  | hostRead off => cases h; exact ⟨s, _, _, .quiet _ rfl (by simp), rfl⟩
  | hostWrite off v =>
    cases h
    exact ⟨_, _, _, memWrite_stepCase rfl, memWrite_env s l n _ _ off v⟩
  | hostProgram =>
    cases h
    obtain ⟨u, p, rd, hu, he⟩ := hostProgramStep_stepCase s l n
    exact ⟨u, p, rd, hu, he⟩
  | sequencer =>
    simp only [eventStep] at h
    rcases sequencerStep_cases (s.env l n s.prog s.reads) with ⟨hr, hp, ⟨i, hd, he⟩ | ⟨op, hd, he⟩⟩ | ⟨-, he⟩
    · obtain ⟨u, hu, rfl⟩ := (exec_next (he ▸ h)).of_env
      exact ⟨u, _, _, .body u hr hp hu, rfl⟩
    · rw [he] at h; cases h
      exact ⟨_, _, _, .body _ hr hp (.fails s.tmp .illegalOpcode (by decide)), rfl⟩
    · rw [he] at h; cases h
      exact ⟨s, _, _, .quiet _ rfl (by simp), rfl⟩
  | transport a =>
    cases h
    rcases transportStep_cases a (s.env l n s.prog s.reads) with ⟨r, hp, hl, he⟩ | he <;> rw [he]
    · exact ⟨_, _, _, .answer r a hp hl, rfl⟩
    · exact ⟨s, _, _, .quiet _ rfl (by simp), rfl⟩
  | lateAnswer a => cases h; exact ⟨s, _, _, .quiet _ rfl (by simp), rfl⟩
  | blockReset => cases h; exact ⟨_, _, _, .reset, rfl⟩

/-- Taking the next event touches the environment's fields only. -/
theorem nextEvent_env (s : State) : ∃ l n, s.nextEvent.2 = s.env l n s.prog s.reads := by
  obtain ⟨l, n, h⟩ := nextEvent_cases s
  exact ⟨l, n, h⟩

/-- Everything one step can leave, by the event that comes next. -/
theorem step_cases {s t : State} (h : step s = .next t) :
    ∃ u l n p rd, StepCase s s.nextEvent.1 u ∧ t = u.env l n p rd := by
  obtain ⟨l, n, he⟩ := nextEvent_env s
  unfold step at h
  rw [he] at h
  obtain ⟨u, p, rd, hu, ht⟩ := eventStep_cases h
  exact ⟨u, l, n, p, rd, hu, ht⟩

end Sys2Proof.Machine
end

