-- ==== Sys2Proof/Tests/Slice0.lean ====
section
/-! SUPPORT. Our own tests: well-formedness refusals, words written out from the encoding, one-step tests
with the expected values of spec/95_test_vectors.md, and a witness for the hypotheses of every statement. -/

namespace Sys2Proof.Tests

open Sys2Proof.Machine Sys2Proof.Statements

/-! ### Well-formed parameters (00_scope.md R10, R11) -/

/-- The defaults are a choice the rules allow. -/
theorem test_default_params : Params.default.wellFormed = true := by decide

/-- R10: one position for both resolution bits is refused. -/
theorem test_equal_bits : { Params.default with resLoBit := 7 }.wellFormed = false := by decide

/-- R11: a device table with one byte twice is refused. -/
theorem test_devid_repeated :
    { Params.default with devidTable := [(0x15#8, 4#8), (0x15#8, 3#8)] }.wellFormed = false := by decide

/-- R11: a device table with the class 0 is refused. -/
theorem test_devid_zero : { Params.default with devidTable := [(0x15#8, 0#8)] }.wellFormed = false := by decide

/-- R11: a firmware table with one byte twice is refused. -/
theorem test_fw_repeated :
    { Params.default with fwTable := [(0x20#8, 2#8), (0xFF#8, 1#8), (0x20#8, 2#8)] }.wellFormed = false := by decide

/-- R11: a firmware table with the class 0 is refused. -/
theorem test_fw_zero : { Params.default with fwTable := [(0xFF#8, 0#8)] }.wellFormed = false := by decide

/-! ### Decoding, each word written out from 30_encoding.md R300 to R302 -/

theorem test_decode_measRh : decode 0x00000001#32 = .ok .measRh := by decide
theorem test_decode_measT : decode 0x00000002#32 = .ok .measT := by decide
theorem test_decode_readSerial : decode 0x00000003#32 = .ok .readSerial := by decide
theorem test_decode_readDevid : decode 0x00000004#32 = .ok .readDevid := by decide
theorem test_decode_readFw : decode 0x00000005#32 = .ok .readFw := by decide
theorem test_decode_softReset : decode 0x00000006#32 = .ok .softReset := by decide
theorem test_decode_readUser : decode 0x00000007#32 = .ok .readUser := by decide
theorem test_decode_writeUser : decode 0x00003A08#32 = .ok (.writeUser 0x3A#8) := by decide
theorem test_decode_readHtr : decode 0x00000009#32 = .ok .readHtr := by decide
theorem test_decode_writeHtr : decode 0x0000A50A#32 = .ok (.writeHtr 0xA5#8) := by decide
theorem test_decode_heaterOn : decode 0x0000000B#32 = .ok .heaterOn := by decide
theorem test_decode_heaterOff : decode 0x0000000C#32 = .ok .heaterOff := by decide
theorem test_decode_setHlvl : decode 0x0000050D#32 = .ok (.setHlvl 0x05#8) := by decide
theorem test_decode_setRes : decode 0x0000020E#32 = .ok (.setRes 0x02#8) := by decide
theorem test_decode_cvtT : decode 0x00000010#32 = .ok .cvtT := by decide
theorem test_decode_cvtRh : decode 0x00000011#32 = .ok .cvtRh := by decide
theorem test_decode_cvtC : decode 0x00000012#32 = .ok .cvtC := by decide

/-- V-E6: ARG and bits 31:16 are ignored by MEAS_T. -/
theorem test_decode_ignored : decode 0xABCD0502#32 = .ok .measT := by decide

/-- V-E7 and R303: the gaps of the opcode map are rejected by name. -/
theorem test_decode_unassigned :
    decode 0x00000000#32 = .error (.unassigned 0x00#8) ∧ decode 0x0000000F#32 = .error (.unassigned 0x0F#8) ∧
    decode 0xFFFF0013#32 = .error (.unassigned 0x13#8) ∧ decode 0x000000FF#32 = .error (.unassigned 0xFF#8) := by
  decide

/-- R310: the words of the assembler's examples, V-E1, V-E3, V-E4 and P5. -/
theorem test_encode_examples :
    encode (.setHlvl 0x05#8) = 0x0000050D#32 ∧ (AsmCommand.setRes true false).word = 0x0000020E#32 ∧
    encode (.writeHtr 0xA5#8) = 0x0000A50A#32 ∧ (AsmCommand.hash (.setRes 0#8) 0x04#8).word = 0x0000040E#32 := by
  decide

/-- A word of the opcode table decodes to its command, and stored as the next command it runs. -/
theorem test_table_word : decodeTableWord 32 0x0000000A = some (.writeHtr 0x00#8) := by decide

theorem test_table_word_none : decodeTableWord 32 0x00000013 = none := by decide

/-! ### States for the tests -/

/-- A block that runs the command of `op` and `arg`, at step index `pc` with response `r`, after reset. -/
def running (op arg : Byte) (pc : Nat) (r : Option Response) : State :=
  { State.reset with phase := .run, busy := true, op := op, lastOp := op, arg := arg, pc := pc, resp := r }

/-- The same, waiting for the answer to a request. -/
def asking (op arg : Byte) (pc : Nat) (r : Request) : State :=
  { State.reset with phase := .run, busy := true, op := op, lastOp := op, arg := arg, pc := pc, pend := some r }

/-- A write answered with a status. -/
def wrote (st : BusStatus) : Option Response := some (.writeDone st)

/-- A successful read. -/
def got (bs : List Byte) : Option Response := some (.readDone .success bs)

/-- What `f` sees of the next state, if there is one. -/
def after {α : Type} (f : State → α) : Out → Option α
  | .next t => some (f t)
  | .fault _ => none
  | .refused _ => none

/-- The host's view of the end of a command: the STAT word and the RESULT word. -/
def statResult (t : State) : Word × Word := (t.memRead 0x04#7, t.memRead 0x0C#7)

/-- Parameters with P_READ_STOP = false. -/
def noStop (s : State) : State := { s with params := { s.params with readStop := false } }

/-- Parameters with P_RES_TARGET = USER. -/
def userTarget (s : State) : State := { s with params := { s.params with resTarget := .user } }

theorem test_fetch_word : after State.pend (step (State.reset.withFetchWord 32 0x0000000A)) =
    some (some (.write 0x40#7 [0x51#8, 0x00#8] true)) := by decide

/-! ### Measurement and identity, vectors V-M -/

/-- V-M4: not clamped. -/
theorem test_measRh_end :
    after (fun t => (statResult t, t.out.rh)) (exec .measRh (running 0x01#8 0#8 2 (got [0xFF#8, 0xFF#8]))) =
      some ((0x00010002#32, 0x0000FFFF#32), 0x00000076FF830000#64) := by decide

/-- V-M6. -/
theorem test_measRh_error :
    after (fun t => (statResult t, t.out.rh)) (exec .measRh (running 0x01#8 0#8 2 (some (.readDone .otherError [])))) =
      some ((0x00010400#32, 0x00000000#32), 0x0000000000000000#64) := by decide

/-- V-M2: the raw code is unsigned. -/
theorem test_measT_end :
    after (fun t => (statResult t, t.out.cel)) (exec .measT (running 0x02#8 0#8 2 (got [0x80#8, 0x00#8]))) =
      some ((0x00020002#32, 0x00008000#32), 0x00000029028F5C29#64) := by decide

/-- V-M18: the stop flag is the parameter. -/
theorem test_measT_noStop :
    after State.pend (exec .measT (noStop (running 0x02#8 0#8 0 none))) =
      some (some (.write 0x40#7 [0xE3#8] false)) := by decide

/-- V-M8. -/
theorem test_readSerial_end :
    after statResult (exec .readSerial (running 0x03#8 0#8 2 (got [0x12#8, 0x34#8]))) =
      some (0x00030002#32, 0x00001234#32) := by decide

/-- V-M8. -/
theorem test_readSerial_start :
    after State.pend (exec .readSerial (running 0x03#8 0#8 0 none)) =
      some (some (.write 0x40#7 [0xFA#8, 0x0F#8] true)) := by decide

/-- V-M9. -/
theorem test_readDevid_end :
    after statResult (exec .readDevid (running 0x04#8 0#8 2 (got [0x15#8]))) =
      some (0x00040002#32, 0x00040015#32) := by decide

/-- V-M13: an unknown byte is no error. -/
theorem test_readDevid_unknown :
    after statResult (exec .readDevid (running 0x04#8 0#8 2 (got [0x33#8]))) =
      some (0x00040002#32, 0x00000033#32) := by decide

/-- V-M15. -/
theorem test_readFw_end :
    after statResult (exec .readFw (running 0x05#8 0#8 2 (got [0x20#8]))) =
      some (0x00050002#32, 0x00020020#32) := by decide

/-- V-M17. -/
theorem test_readFw_nack :
    after statResult (exec .readFw (running 0x05#8 0#8 1 (wrote .dataNack))) =
      some (0x00050300#32, 0x00000000#32) := by decide

/-! ### Soft reset and primitives, vectors V-P -/

/-- V-P2: the stop is sent whatever P_READ_STOP is. -/
theorem test_softReset_stop :
    after State.pend (exec .softReset (noStop (running 0x06#8 0#8 0 none))) =
      some (some (.write 0x40#7 [0xFE#8] true)) := by decide

/-- V-P1. -/
theorem test_softReset_end :
    after statResult (exec .softReset (running 0x06#8 0#8 1 (wrote .success))) =
      some (0x00060002#32, 0x00000000#32) := by decide

/-- V-P4. -/
theorem test_readUser_end :
    after statResult (exec .readUser (running 0x07#8 0#8 2 (got [0x3A#8]))) =
      some (0x00070002#32, 0x0000003A#32) := by decide

/-- V-P9. -/
theorem test_readUser_nack :
    after statResult (exec .readUser (running 0x07#8 0#8 2 (some (.readDone .addrNack [0x11#8])))) =
      some (0x00070200#32, 0x00000000#32) := by decide

/-- V-P6. -/
theorem test_writeUser_start :
    after State.pend (exec (.writeUser 0x3A#8) (running 0x08#8 0x3A#8 0 none)) =
      some (some (.write 0x40#7 [0xE6#8, 0x3A#8] true)) := by decide

/-- V-P6. -/
theorem test_writeUser_end :
    after statResult (exec (.writeUser 0x3A#8) (running 0x08#8 0x3A#8 1 (wrote .success))) =
      some (0x00080002#32, 0x0000003A#32) := by decide

/-- V-P5: the read half after the command write. -/
theorem test_readHtr_start :
    after State.pend (exec .readHtr (running 0x09#8 0#8 1 (wrote .success))) =
      some (some (.read 0x40#7 1)) := by decide

/-- V-P5. -/
theorem test_readHtr_end :
    after statResult (exec .readHtr (running 0x09#8 0#8 2 (got [0xA7#8]))) =
      some (0x00090002#32, 0x000000A7#32) := by decide

/-- V-P7: reserved bits are written as given. -/
theorem test_writeHtr_start :
    after State.pend (exec (.writeHtr 0xF5#8) (running 0x0A#8 0xF5#8 0 none)) =
      some (some (.write 0x40#7 [0x51#8, 0xF5#8] true)) := by decide

/-- V-P8. -/
theorem test_writeHtr_nack :
    after statResult (exec (.writeHtr 0x05#8) (running 0x0A#8 0x05#8 1 (wrote .dataNack))) =
      some (0x000A0300#32, 0x00000000#32) := by decide

/-! ### Read-modify-write, vectors V-R -/

/-- V-R1. -/
theorem test_heaterOn_writes :
    after State.pend (exec .heaterOn (running 0x0B#8 0#8 2 (got [0x3A#8]))) =
      some (some (.write 0x40#7 [0xE6#8, 0x3E#8] true)) := by decide

/-- V-R3: bit 6 set, no write. -/
theorem test_heaterOn_low :
    after (fun t => (statResult t, t.pend)) (exec .heaterOn (running 0x0B#8 0#8 2 (got [0x7A#8]))) =
      some ((0x000B0600#32, 0x00000000#32), none) := by decide

/-- V-R8: bit 6 is not tested. -/
theorem test_heaterOff_writes :
    after State.pend (exec .heaterOff (running 0x0C#8 0#8 2 (got [0x7E#8]))) =
      some (some (.write 0x40#7 [0xE6#8, 0x7A#8] true)) := by decide

/-- V-R6. -/
theorem test_heaterOff_end :
    after statResult (exec .heaterOff { running 0x0C#8 0#8 3 (wrote .success) with tmp := 0x3E#8 }) =
      some (0x000C0002#32, 0x0000003A#32) := by decide

/-- V-R10: the high nibble is kept. -/
theorem test_setHlvl_writes :
    after State.pend (exec (.setHlvl 0x0F#8) (running 0x0D#8 0x0F#8 2 (got [0xA7#8]))) =
      some (some (.write 0x40#7 [0x51#8, 0xAF#8] true)) := by decide

/-- V-R12: rejected before any bus traffic. -/
theorem test_setHlvl_range :
    after (fun t => (statResult t, t.pend)) (exec (.setHlvl 0x10#8) (running 0x0D#8 0x10#8 0 none)) =
      some ((0x000D0500#32, 0x00000000#32), none) := by decide

/-- V-R20: the user register as target. -/
theorem test_setRes_writes :
    after State.pend (exec (.setRes 0x02#8) (userTarget (running 0x0E#8 0x02#8 2 (got [0x3A#8])))) =
      some (some (.write 0x40#7 [0xE6#8, 0xBA#8] true)) := by decide

/-- V-R15. -/
theorem test_setRes_end :
    after statResult (exec (.setRes 0x01#8) { running 0x0E#8 0x01#8 3 (wrote .success) with tmp := 0x3A#8 }) =
      some (0x000E0002#32, 0x0000003B#32) := by decide

/-! ### Conversion, vectors V-C -/

/-- V-C1, the row of 0x6A8E. -/
theorem test_cvtT_end :
    after State.out (exec .cvtT { running 0x10#8 0#8 0 none with opnd := 0x6A8E#16 }) =
      some ⟨0x0000001A4A308F5C#64, 0x0000012B7096F5C2#64, 0x0000004F52576872#64, 0x0000021AFDDC872B#64,
        0x00000008ACF66CC0#64, 0x0000006E90B728F6#64, 0x000000150826D916#64, 0x000000154D597E77#64, 0#64⟩ := by decide

/-- V-C1, the row of 0x0000. -/
theorem test_cvtT_low :
    after State.out (exec .cvtT { running 0x10#8 0#8 0 none with opnd := 0x0000#16 }) =
      some ⟨0xFFFFFFD126666666#64, 0x000000E24CCCCCCC#64, 0xFFFFFFCBAB851EB8#64, 0x00000197570A3D70#64,
        0xFFFFFFF08A1CAC08#64, 0x000000DC46666667#64, 0xFFFFFFDA851EB852#64, 0xFFFFFFEEE75C28F6#64, 0#64⟩ := by decide

/-- V-C2. -/
theorem test_cvtRh_end :
    after (fun t => t.out.rh) (exec .cvtRh { running 0x11#8 0#8 0 none with opnd := 0x0C4A#16 }) =
      some 0x0000000000220000#64 := by decide

/-- RESULT is kept by a conversion (R565). -/
theorem test_cvtRh_result :
    after statResult (exec .cvtRh { running 0x11#8 0#8 0 none with data16 := 0x1234#16, dclass := 0x04#8 }) =
      some (0x00110002#32, 0x00041234#32) := by decide

/-- V-C3: the Delisle tie at -2^-32. -/
theorem test_cvtC_tie :
    after State.out (exec .cvtC { running 0x12#8 0#8 0 none with celin := 0xFFFFFFFFFFFFFFFF#64 }) =
      some ⟨0xFFFFFFFFFFFFFFFF#64, 0x0000011126666665#64, 0x0000001FFFFFFFFE#64, 0x000001EBAB851EB7#64,
        0x0000000000000000#64, 0x0000009600000002#64, 0xFFFFFFFFFFFFFFFF#64, 0x000000077FFFFFFF#64, 0#64⟩ := by decide +kernel

/-- V-C3: the wraps at the greatest CELIN. -/
theorem test_cvtC_wrap :
    after State.out (exec .cvtC { running 0x12#8 0#8 0 none with celin := 0x7FFFFFFFFFFFFFFF#64 }) =
      some ⟨0x7FFFFFFFFFFFFFFF#64, 0x8000011126666665#64, 0xE666668666666665#64, 0xE666685211EB851D#64,
        0x2A3D70A3D70A3D70#64, 0x4000009600000002#64, 0x6666666666666666#64, 0x4333333AB3333333#64, 0#64⟩ := by decide +kernel

/-! ### The host's accesses and the events, vectors V-E -/

/-- V-E9: OPND keeps 16 bits. -/
theorem test_opnd : (State.reset.memWrite 0x08#7 0x12345678#32).memRead 0x08#7 = 0x00005678#32 := by decide

/-- V-E11: the low bits of the offset do not count. -/
theorem test_stat_offset : ((running 0x02#8 0#8 0 none).memRead 0x06#7) = 0x00020001#32 := by decide

/-- V-E12 to V-E14: OVR is cleared by bit 2 only. -/
theorem test_ovr_clear :
    ({ State.reset with ovr := true }.memWrite 0x04#7 0xFFFFFFFB#32).ovr = true ∧
    ({ State.reset with ovr := true }.memWrite 0x04#7 0x00000004#32).ovr = false := by decide

/-- V-E15: a CMD write while BUSY = 1. -/
theorem test_overrun : (running 0x0C#8 0#8 0 none).memWrite 0x00#7 0x00000002#32 =
    { running 0x0C#8 0#8 0 none with ovr := true } := by decide

/-- V-E7: an unassigned opcode ends at its first sequencer step. -/
theorem test_illegal :
    after statResult (step { running 0x13#8 0#8 0 none with inputs := [.sequencer] }) =
      some (0x00130800#32, 0x00000000#32) := by decide

/-- R215: a successful read answered with the wrong number of bytes is no answer. -/
theorem test_unlawful :
    after State.pend (step { asking 0x02#8 0#8 1 (.read 0x40#7 2) with inputs := [.transport ⟨.success, [0x6A#8]⟩] }) =
      some (some (.read 0x40#7 2)) := by decide

/-- R320: the Fahrenheit operation is MEAS_T and two reads of OUT_FAH. -/
theorem test_expand : SourceOp.getFahrenheit.expand =
    [.cmd (.plain .measT), .wait, .rd (.outLo 2), .rd (.outHi 2)] := by decide

/-! ### Witnesses: states and operands that meet the hypotheses of each statement

The states below: `idle` has just finished MEAS_T with SUCCESS; `started`, `writing`, `written`, `reading` and
`readDone` are MEAS_T at each of its points; `rmwWriting` and `rmwWritten` are HEATER_OFF at its third
transaction and after it. -/

def idle : State :=
  { State.reset with valid := true, lastOp := 0x02#8, op := 0x02#8, data16 := 0x6A8E#16, ovr := true, pc := 2 }
def started : State := running 0x02#8 0x00#8 0 none
def writing : State := asking 0x02#8 0x00#8 0 (.write 0x40#7 [0xE3#8] true)
def written : State := running 0x02#8 0x00#8 1 (wrote .success)
def reading : State := asking 0x02#8 0x00#8 1 (.read 0x40#7 2)
def readDone : State := running 0x02#8 0x00#8 2 (got [0x6A#8, 0x8E#8])
def rmwWriting : State :=
  { asking 0x0C#8 0x00#8 2 (.write 0x40#7 [0xE6#8, 0x3A#8] true) with tmp := 0x3E#8 }
def rmwWritten : State := { running 0x0C#8 0x00#8 3 (wrote .success) with tmp := 0x3E#8 }

/-- `s` with the coming events `l`. -/
def coming (s : State) (l : List Event) : State := { s with inputs := l }

/-- A block that is not running, with the invariant. -/
theorem idle_inv (l : List Event) : (coming idle l).Inv where
  params_ok := test_default_params
  busy_run := by constructor <;> intro h <;> cases h
  valid_done := fun _ => ⟨rfl, rfl⟩
  lastOp_op := rfl
  pc_le := (by decide : 2 ≤ 3)
  idle_quiet := fun _ => ⟨rfl, rfl⟩
  waiting := by intro h; cases h
  resuming := by intro h; cases h
  trace_ok := by intro e h; cases h

/-- A running command that is waiting, with the invariant. -/
theorem asking_inv {op arg tmp : Byte} {pc : Nat} {r : Request} {i : Instr} (l : List Event) (hpc : pc ≤ 3)
    (hd : decodeCommand op arg = .ok i) (ht : transaction Params.default tmp i pc = some r) :
    (coming { asking op arg pc r with tmp := tmp } l).Inv where
  params_ok := test_default_params
  busy_run := by constructor <;> intro _ <;> rfl
  valid_done := by intro h; cases h
  lastOp_op := rfl
  pc_le := hpc
  idle_quiet := by intro h; cases h
  waiting := by rintro _ _ ⟨⟩; exact ⟨rfl, i, hd, ht⟩
  resuming := by intro _ h; cases h
  trace_ok := by intro e h; cases h

/-- A running command that can go on, with the invariant. -/
theorem running_inv {op arg tmp : Byte} {pc : Nat} {a : Option Response} (l : List Event) (hpc : pc ≤ 3)
    (hr : ({ running op arg pc a with tmp := tmp } : State).Resuming) :
    (coming { running op arg pc a with tmp := tmp } l).Inv where
  params_ok := test_default_params
  busy_run := by constructor <;> intro _ <;> rfl
  valid_done := by intro h; cases h
  lastOp_op := rfl
  pc_le := hpc
  idle_quiet := by intro h; cases h
  waiting := by intro _ r h; cases h
  resuming := fun _ _ => hr
  trace_ok := by intro e h; cases h

theorem started_inv (l : List Event) : (coming started l).Inv :=
  running_inv (tmp := 0#8) l (by decide) (.inl ⟨rfl, rfl⟩)
theorem writing_inv (l : List Event) : (coming writing l).Inv :=
  asking_inv (tmp := 0#8) (i := .measT) l (by decide) rfl rfl
theorem written_inv (l : List Event) : (coming written l).Inv :=
  running_inv (tmp := 0#8) l (by decide) (.inr ⟨.measT, 0, _, _, rfl, rfl, rfl, rfl, rfl⟩)
theorem reading_inv (l : List Event) : (coming reading l).Inv :=
  asking_inv (tmp := 0#8) (i := .measT) l (by decide) rfl rfl
theorem readDone_inv (l : List Event) : (coming readDone l).Inv :=
  running_inv (tmp := 0#8) l (by decide) (.inr ⟨.measT, 1, _, _, rfl, rfl, rfl, rfl, rfl⟩)
theorem rmwWriting_inv (l : List Event) : (coming rmwWriting l).Inv :=
  asking_inv (i := .heaterOff) l (by decide) rfl rfl
theorem rmwWritten_inv (l : List Event) : (coming rmwWritten l).Inv :=
  running_inv l (by decide) (.inr ⟨.heaterOff, 2, _, _, rfl, rfl, rfl, rfl, rfl⟩)

/-! Reset, accept and the host's accesses -/

theorem witness_BlockResetAbandonsAndClears :
    (coming reading [.blockReset]).inputs = .blockReset :: [] ∧ (coming reading [.blockReset]).busy = true := by decide

/-- The offsets 0 and 3 are both CMD. -/
theorem witness_AcceptLatchesTheCommand :
    ∀ off ∈ [0x00#7, 0x03#7], (coming idle [.hostWrite off 0x0000050D#32]).busy = false ∧ off.toNat / 4 = 0 ∧
      (coming idle [.hostWrite off 0x0000050D#32]).inputs = .hostWrite off 0x0000050D#32 :: [] := by decide

theorem witness_OverrunSetsOnlyOvr :
    ∀ off ∈ [0x00#7, 0x03#7], (coming reading [.hostWrite off 2#32]).busy = true ∧ off.toNat / 4 = 0 ∧
      (coming reading [.hostWrite off 2#32]).inputs = .hostWrite off 2#32 :: [] := by decide

/-- Each clause at the ends of its offsets. -/
theorem witness_HostWritesActOnlyWhereTheyMay :
    (∀ off v, (coming reading [.hostWrite off v]).inputs = .hostWrite off v :: []) ∧
    (∀ off ∈ [0x04#7, 0x07#7], off.toNat / 4 = 1) ∧
    (0x00000004#32).getLsbD 2 = true ∧ (0xFFFFFFFB#32).getLsbD 2 = false ∧
    (∀ off ∈ [0x08#7, 0x0B#7], off.toNat / 4 = 2) ∧ (∀ off ∈ [0x10#7, 0x13#7], off.toNat / 4 = 4) ∧
    (∀ off ∈ [0x14#7, 0x17#7], off.toNat / 4 = 5) ∧
    (∀ off ∈ [0x0C#7, 0x0F#7, 0x18#7, 0x7F#7], off.toNat / 4 = 3 ∨ 6 ≤ off.toNat / 4) := by
  refine ⟨fun _ _ => rfl, ?_⟩; decide

/-- Each clause at the ends of its offsets; OUT at its first and its last register. -/
theorem witness_HostReadsFollowTheRegisterMap :
    (∀ off ∈ [0x00#7, 0x03#7], off.toNat / 4 = 0) ∧ (∀ off ∈ [0x04#7, 0x07#7], off.toNat / 4 = 1) ∧
    (∀ off ∈ [0x08#7, 0x0B#7], off.toNat / 4 = 2) ∧ (∀ off ∈ [0x0C#7, 0x0F#7], off.toNat / 4 = 3) ∧
    (∀ off ∈ [0x10#7, 0x13#7], off.toNat / 4 = 4) ∧ (∀ off ∈ [0x14#7, 0x17#7], off.toNat / 4 = 5) ∧
    (∀ off ∈ [0x20#7, 0x23#7], off.toNat / 4 = 8 + 2 * 0) ∧ (∀ off ∈ [0x24#7, 0x27#7], off.toNat / 4 = 9 + 2 * 0) ∧
    (∀ off ∈ [0x60#7, 0x63#7], off.toNat / 4 = 8 + 2 * 8) ∧ (∀ off ∈ [0x64#7, 0x67#7], off.toNat / 4 = 9 + 2 * 8) ∧
    (∀ off ∈ [0x18#7, 0x1F#7, 0x68#7, 0x7F#7], off.toNat / 4 = 6 ∨ off.toNat / 4 = 7 ∨ 26 ≤ off.toNat / 4) := by
  decide

theorem witness_HostReadsHaveNoSideEffect :
    (coming readDone [.hostRead 0x0C#7]).inputs = .hostRead 0x0C#7 :: [] ∧
    ∃ t, step (coming readDone [.hostRead 0x0C#7]) = .next t := ⟨rfl, _, rfl⟩

/-- Each of the three words written, and a word read that is the same one or another one. -/
theorem witness_OperandWordsReadBack :
    (∀ off ∈ [0x08#7, 0x0B#7, 0x10#7, 0x13#7, 0x14#7, 0x17#7],
      off.toNat / 4 = 2 ∨ off.toNat / 4 = 4 ∨ off.toNat / 4 = 5) ∧
    (0x10#7).toNat / 4 ≠ (0x0B#7).toNat / 4 ∧ (0x08#7).toNat / 4 = (0x0B#7).toNat / 4 ∧
    (0x14#7).toNat / 4 = (0x17#7).toNat / 4 ∧ (0x17#7).toNat / 4 ≠ 2 := by decide

/-- A program at each kind of statement, before and after BUSY falls, and a program that is over. -/
theorem witness_HostProgramsAreHostAccesses :
    (∀ s : State, (coming s [.hostProgram]).inputs = .hostProgram :: []) ∧
    (∀ st ∈ [HostStmt.cmd (.plain .measT), .wr .stat 4#32, .rd .result, .wait],
      (coming { idle with prog := [st] } [.hostProgram]).prog = st :: [] ∧
      (coming { reading with prog := [st] } [.hostProgram]).prog = st :: []) ∧
    idle.busy = false ∧ reading.busy = true ∧ (coming idle [.hostProgram]).prog = [] := by
  refine ⟨fun _ => rfl, ?_⟩; decide

/-! Encoding -/

/-- A command without an operand and one with its operand, with ignored bits set. -/
theorem witness_DecodedWordsAgreeWithTheEncoding :
    decode 0xABCD0502#32 = .ok .measT ∧ decode 0xABCDF508#32 = .ok (.writeUser 0xF5#8) ∧
    ∃ a, (Instr.writeUser 0xF5#8) = .writeUser a ∨ (Instr.writeUser 0xF5#8) = .writeHtr a ∨
      (Instr.writeUser 0xF5#8) = .setHlvl a ∨ (Instr.writeUser 0xF5#8) = .setRes a :=
  ⟨by decide, by decide, _, .inl rfl⟩

theorem witness_DecodingIsTotalByTheOpcodeAlone :
    (0xABCD0008#32).toNat % 256 = (0x0000F508#32).toNat % 256 ∧ decode 0xABCD0008#32 = .ok (.writeUser 0#8) := by
  decide

/-- Both gaps of the map and both ends of the range above it, running; and an idle block. -/
theorem witness_UnassignedOpcodesEndWithIllegalOpcode :
    idle.busy = false ∧
    ∀ op ∈ [0x00#8, 0x0F#8, 0x13#8, 0xFF#8],
      let s := coming (running op 0#8 0 none) [.sequencer]
      s.inputs = .sequencer :: [] ∧ s.phase = .run ∧ s.pend = none ∧
        (s.op = 0x00#8 ∨ s.op = 0x0F#8 ∨ 0x13 ≤ s.op.toNat) := by decide

theorem witness_IgnoredBitsChangeNothing :
    (0xABCD0502#32).toNat % 65536 = (0x00000502#32).toNat % 65536 ∧
    (0xABCD0502#32).toNat % 256 = (0x00000002#32).toNat % 256 ∧ (0xABCD0502#32).toNat % 256 ≠ 0x08 ∧
    (0xABCD0502#32).toNat % 256 ≠ 0x0A ∧ (0xABCD0502#32).toNat % 256 ≠ 0x0D ∧ (0xABCD0502#32).toNat % 256 ≠ 0x0E := by
  decide

/-! The sequencer and the transport -/

theorem witness_StepRunsTheLatchedCommand :
    let s := coming written [.sequencer]
    s.inputs = .sequencer :: [] ∧ s.phase = .run ∧ s.pend = none ∧ decodeCommand s.op s.arg = .ok .measT ∧
      Instr.measT.wellFormed = true := by decide

/-- The answer to a write, a successful read of the right length, and a failed read of another length. -/
theorem witness_TransportAnswerIsRecordedAndCounted :
    (∀ s a, (coming s [.transport a]).inputs = .transport a :: []) ∧
    (coming writing [.transport ⟨.dataNack, []⟩]).pend = some (.write 0x40#7 [0xE3#8] true) ∧
    (coming reading [.transport ⟨.success, [0x6A#8, 0x8E#8]⟩]).pend = some (.read 0x40#7 2) ∧
    [0x6A#8, 0x8E#8].length = 2 ∧ BusStatus.addrNack ≠ .success := by
  refine ⟨fun _ _ => rfl, ?_⟩; decide

/-- An idle block, a waiting one, and one with no request. -/
theorem witness_DisabledAgentsDoNothing :
    (∀ s e, (coming s [e]).inputs = e :: []) ∧ (coming idle [.sequencer]).phase = .idle ∧
    (coming reading [.sequencer]).pend ≠ none ∧ (coming written [.transport ⟨.success, []⟩]).pend = none := by
  refine ⟨fun _ _ => rfl, ?_⟩; decide

theorem witness_OnlyAnswerOrResetEndsTheWait :
    let s := coming reading [.hostWrite 0x00#7 0x00000006#32]
    ∃ t, s.Inv ∧ s.pend = some (.read 0x40#7 2) ∧ step s = .next t ∧ s.nextEvent.1 ≠ .blockReset ∧
      ∀ a, s.nextEvent.1 ≠ .transport a :=
  ⟨_, reading_inv _, rfl, rfl, by decide, by intro a h; cases h⟩

/-! The commands. The hypotheses are on the step index and the response only. -/

/-- Every point of a two-transaction read of two bytes, with its two failures. -/
theorem witness_twoByteRead :
    started.pc = 0 ∧ (written.pc = 1 ∧ written.resp = some (.writeDone .success)) ∧
    (readDone.pc = 2 ∧ readDone.resp = some (.readDone .success [0x6A#8, 0x8E#8])) ∧
    ((running 0x02#8 0#8 1 (wrote .addrNack)).pc = 1 ∧
      (running 0x02#8 0#8 1 (wrote .addrNack)).resp = some (.writeDone .addrNack) ∧
      BusStatus.addrNack ≠ .success) ∧
    ((running 0x02#8 0#8 2 (some (.readDone .otherError [0x11#8]))).pc = 2 ∧
      (running 0x02#8 0#8 2 (some (.readDone .otherError [0x11#8]))).resp = some (.readDone .otherError [0x11#8]) ∧
      BusStatus.otherError ≠ .success) := by decide

/-- Every point of a two-transaction read of one byte; its failures are those of `witness_twoByteRead`. -/
theorem witness_oneByteRead :
    started.pc = 0 ∧ (written.pc = 1 ∧ written.resp = some (.writeDone .success)) ∧
    (running 0x04#8 0#8 2 (got [0x15#8])).pc = 2 ∧
    (running 0x04#8 0#8 2 (got [0x15#8])).resp = some (.readDone .success [0x15#8]) := by decide

theorem witness_MeasRhFollowsItsRule : (running 0x01#8 0#8 2 (got [0x5C#8, 0x08#8])).pc = 2 ∧
    (running 0x01#8 0#8 2 (got [0x5C#8, 0x08#8])).resp = some (.readDone .success [0x5C#8, 0x08#8]) := by decide

theorem witness_MeasTFollowsItsRule :
    readDone.pc = 2 ∧ readDone.resp = some (.readDone .success [0x6A#8, 0x8E#8]) := by decide

theorem witness_ReadSerialFollowsItsRule : (running 0x03#8 0#8 2 (got [0x12#8, 0x34#8])).pc = 2 ∧
    (running 0x03#8 0#8 2 (got [0x12#8, 0x34#8])).resp = some (.readDone .success [0x12#8, 0x34#8]) := by decide

/-- READ_DEVID and READ_FW. -/
theorem witness_IdentityReadsFollowTheirRules :
    ∀ op ∈ [0x04#8, 0x05#8], (running op 0#8 2 (got [0xFF#8])).pc = 2 ∧
      (running op 0#8 2 (got [0xFF#8])).resp = some (.readDone .success [0xFF#8]) := by decide

/-- READ_USER and READ_HTR. -/
theorem witness_RegisterReadsFollowTheirRules :
    ∀ op ∈ [0x07#8, 0x09#8], (running op 0#8 2 (got [0x3A#8])).pc = 2 ∧
      (running op 0#8 2 (got [0x3A#8])).resp = some (.readDone .success [0x3A#8]) := by decide

theorem witness_SoftResetFollowsItsRule :
    (running 0x06#8 0#8 0 none).pc = 0 ∧
    ((running 0x06#8 0#8 1 (wrote .success)).pc = 1 ∧
      (running 0x06#8 0#8 1 (wrote .success)).resp = some (.writeDone .success)) ∧
    (running 0x06#8 0#8 1 (wrote .dataNack)).resp = some (.writeDone .dataNack) ∧ BusStatus.dataNack ≠ .success := by
  decide

/-- WRITE_USER and WRITE_HTR, with the greatest byte. -/
theorem witness_RegisterWritesFollowTheirRules :
    ∀ op ∈ [0x08#8, 0x0A#8],
      (running op 0xFF#8 0 none).pc = 0 ∧ (running op 0xFF#8 1 (wrote .success)).pc = 1 ∧
      (running op 0xFF#8 1 (wrote .success)).resp = some (.writeDone .success) ∧
      (running op 0xFF#8 1 (wrote .dataTooLong)).resp = some (.writeDone .dataTooLong) ∧
      BusStatus.dataTooLong ≠ .success := by decide

/-- The default tables' listed bytes, the ends of the byte's range, and an unlisted one. -/
theorem witness_DecodeTablesFollowTheirRules :
    Params.default.wellFormed = true ∧ (0x00#8, 1#8) ∈ Params.default.devidTable ∧
    (0xFF#8, 1#8) ∈ Params.default.fwTable ∧ (∀ c, (0x33#8, c) ∉ Params.default.devidTable) ∧
    ∀ c, (0x42#8, c) ∉ Params.default.fwTable := by
  refine ⟨by decide, by decide, by decide, ?_, ?_⟩ <;> intro c h <;> simp [Params.default] at h

/-- Every point of a read-modify-write, with the failure of each of its three transactions. -/
theorem witness_rmw :
    started.pc = 0 ∧ (written.pc = 1 ∧ written.resp = some (.writeDone .success)) ∧
    ((running 0x0C#8 0#8 2 (got [0x3E#8])).pc = 2 ∧
      (running 0x0C#8 0#8 2 (got [0x3E#8])).resp = some (.readDone .success [0x3E#8])) ∧
    (rmwWritten.pc = 3 ∧ rmwWritten.resp = some (.writeDone .success) ∧ rmwWritten.tmp = 0x3E#8) ∧
    (∀ pc ∈ [1, 3], (running 0x0C#8 0#8 pc (wrote .dataNack)).pc = pc ∧
      (running 0x0C#8 0#8 pc (wrote .dataNack)).resp = some (.writeDone .dataNack)) ∧
    (running 0x0C#8 0#8 2 (some (.readDone .addrNack []))).resp = some (.readDone .addrNack []) ∧
    BusStatus.dataNack ≠ .success ∧ BusStatus.addrNack ≠ .success := by decide

/-- A byte with bit 6 set and one with it clear, each at step index 2. -/
theorem witness_HeaterOnFollowsItsRule :
    ((0x40#8).getLsbD 6 = true ∧ (running 0x0B#8 0#8 2 (got [0x40#8])).pc = 2 ∧
      (running 0x0B#8 0#8 2 (got [0x40#8])).resp = some (.readDone .success [0x40#8])) ∧
    ((0xBF#8).getLsbD 6 = false ∧ (running 0x0B#8 0#8 2 (got [0xBF#8])).pc = 2 ∧
      (running 0x0B#8 0#8 2 (got [0xBF#8])).resp = some (.readDone .success [0xBF#8])) := by decide

theorem witness_HeaterOffFollowsItsRule : rmwWritten.pc = 3 ∧ rmwWritten.resp = some (.writeDone .success) ∧
    rmwWritten.tmp = 0x3E#8 := by decide

/-- The level's two clauses where they meet. -/
theorem witness_SetHlvlFollowsItsRule :
    (16 ≤ (0x10#8).toNat ∧ (running 0x0D#8 0x10#8 0 none).pc = 0) ∧
    (0x0F#8).toNat ≤ 15 ∧ (running 0x0D#8 0x0F#8 2 (got [0xA7#8])).pc = 2 ∧
    (running 0x0D#8 0x0F#8 2 (got [0xA7#8])).resp = some (.readDone .success [0xA7#8]) := by decide

/-- The resolution's two clauses where they meet. -/
theorem witness_SetResFollowsItsRule :
    (4 ≤ (0x04#8).toNat ∧ (running 0x0E#8 0x04#8 0 none).pc = 0) ∧
    (0x03#8).toNat ≤ 3 ∧ (running 0x0E#8 0x03#8 2 (got [0x00#8])).pc = 2 ∧
    (running 0x0E#8 0x03#8 2 (got [0x00#8])).resp = some (.readDone .success [0x00#8]) := by decide

/-- Each of the four commands. -/
theorem witness_RmwPreservesEveryOtherBit :
    ∀ i ∈ [Instr.heaterOn, .heaterOff, .setHlvl 0x0F#8, .setRes 0x03#8],
      legalRmw i = true ∧ (running i.opcode i.argByte 2 (got [0x3A#8])).params.wellFormed = true ∧
      (running i.opcode i.argByte 2 (got [0x3A#8])).pc = 2 ∧
      (running i.opcode i.argByte 2 (got [0x3A#8])).resp = some (.readDone .success [0x3A#8]) ∧
      (i = .heaterOn → (0x3A#8).getLsbD 6 = false) := by decide

/-! Conversion -/

/-- The bound of the last clause, met by both its ends. -/
theorem witness_ConversionsFollowTheirRules :
    |(1190000000 * 2 ^ 32 : Int)| ≤ 1190000000 * 2 ^ 32 ∧ |(-1190000000 * 2 ^ 32 : Int)| ≤ 1190000000 * 2 ^ 32 := by
  decide

/-- A tie: one half rounds up, and minus one half rounds up to zero. -/
theorem witness_RndRoundsToNearestTiesUp : (0 : Int) < 2 ∧ rnd 1 2 = 1 ∧ rnd (-1) 2 = 0 := by decide

theorem witness_CelsiusIsTheFormulaRoundedOnce : 0 < 65536 ∧ 65535 < 65536 := by decide

theorem witness_HumidityIsExactAndUnclamped : 0 < 65536 ∧ 65535 < 65536 := by decide

theorem witness_ConversionAccuracy : 0 < 65536 ∧ 65535 < 65536 := by decide

theorem witness_RawCodeOutputsNeverWrap : 0 < 65536 ∧ 65535 < 65536 := by decide

theorem witness_CelsiusRoundTrip :
    readDone.pc = 2 ∧ readDone.resp = some (.readDone .success [0x6A#8, 0x8E#8]) ∧ readDone.out.rh = idle.out.rh := by
  decide

/-- The bound is met by 0 and by the value it is stated about. -/
theorem witness_WrapBoundAsTheRuleWordsIt :
    |((0 : Int) : ℚ) / 2 ^ 32| < (2 ^ 31 - 49167 / 100) / (18 / 10) ∧
    |((5124094402860114102 : Int) : ℚ) / 2 ^ 32| < (2 ^ 31 - 49167 / 100) / (18 / 10) := by
  constructor <;> rw [abs_of_nonneg (by norm_num)] <;> norm_num

theorem witness_WrapBoundExact :
    |(5124094402860114101 : Int)| ≤ 5124094402860114101 ∧ |(-5124094402860114101 : Int)| ≤ 5124094402860114101 := by
  decide

/-! The whole machine -/

/-- The levels and resolutions where the rows of the table meet, and both targets. -/
theorem witness_TransactionTableIsTheRules :
    (0x0F#8).toNat ≤ 15 ∧ 16 ≤ (0x10#8).toNat ∧ (0x03#8).toNat ≤ 3 ∧ 4 ≤ (0x04#8).toNat ∧
    Params.default.resTarget = .htr ∧ (userTarget State.reset).params.resTarget = .user := by decide

/-- A command at its start, after each response, and at its last point. -/
theorem witness_RequestsFollowTheTransactionTable :
    (started.Inv ∧ started.Runs .measT ∧ started.pend = none) ∧
    (written.Inv ∧ written.Runs .measT ∧ written.pend = none) ∧
    (readDone.Inv ∧ readDone.Runs .measT ∧ readDone.pend = none) ∧
    (rmwWritten.Inv ∧ rmwWritten.Runs .heaterOff ∧ rmwWritten.pend = none) :=
  ⟨⟨started_inv [], ⟨rfl, rfl⟩, rfl⟩, ⟨written_inv [], ⟨rfl, rfl⟩, rfl⟩, ⟨readDone_inv [], ⟨rfl, rfl⟩, rfl⟩,
    ⟨rmwWritten_inv [], ⟨rfl, rfl⟩, rfl⟩⟩

/-- A failed write, a failed read, and the failed third transaction of a read-modify-write. -/
theorem witness_FailedTransactionEndsTheCommand :
    (let s := running 0x02#8 0#8 1 (wrote .addrNack)
     s.pc = 0 + 1 ∧ transaction s.params s.tmp .measT 0 = some (.write 0x40#7 [0xE3#8] true) ∧
       s.resp = some (.writeDone .addrNack)) ∧
    (let s := running 0x02#8 0#8 2 (some (.readDone .otherError []))
     s.pc = 1 + 1 ∧ transaction s.params s.tmp .measT 1 = some (.read 0x40#7 2) ∧
       s.resp = some (.readDone .otherError [])) ∧
    (let s := { running 0x0C#8 0#8 3 (wrote .dataNack) with tmp := 0x3E#8 }
     s.pc = 2 + 1 ∧ transaction s.params s.tmp .heaterOff 2 = some (.write 0x40#7 [0xE6#8, 0x3A#8] true) ∧
       s.resp = some (.writeDone .dataNack)) := by decide

theorem witness_InvariantHoldsAtReset :
    (userTarget State.reset).params.wellFormed = true ∧ Params.default.wellFormed = true := by decide

/-- A step of each agent from a state with the invariant. -/
theorem witness_EveryStepKeepsTheInvariant :
    (∃ t, (coming readDone [.sequencer]).Inv ∧ step (coming readDone [.sequencer]) = .next t) ∧
    (∃ t, (coming rmwWriting [.transport ⟨.success, []⟩]).Inv ∧
      step (coming rmwWriting [.transport ⟨.success, []⟩]) = .next t) ∧
    (∃ t, (coming idle [.hostWrite 0x00#7 1#32]).Inv ∧ step (coming idle [.hostWrite 0x00#7 1#32]) = .next t) ∧
    ∃ t, (coming reading [.blockReset]).Inv ∧ step (coming reading [.blockReset]) = .next t :=
  ⟨⟨_, readDone_inv _, rfl⟩, ⟨_, rmwWriting_inv _, rfl⟩, ⟨_, idle_inv _, rfl⟩, ⟨_, reading_inv _, rfl⟩⟩

theorem witness_TheBlockNeverBlocks : rmwWritten.Inv ∧ (coming idle [.sequencer]).Inv :=
  ⟨rmwWritten_inv [], idle_inv _⟩

/-- MEAS_T, all answers successful. -/
theorem witness_AnsweredCommandsEndWithinSevenSteps :
    let s := coming started [.sequencer, .transport ⟨.success, []⟩, .sequencer,
      .transport ⟨.success, [0x6A#8, 0x8E#8]⟩, .sequencer, .transport ⟨.success, []⟩, .sequencer]
    s.Inv ∧ s.phase = .run ∧ s.pc = 0 ∧ s.pend = none ∧
      s.inputs = [.sequencer, .transport ⟨.success, []⟩, .sequencer, .transport ⟨.success, [0x6A#8, 0x8E#8]⟩,
        .sequencer, .transport ⟨.success, []⟩, .sequencer] ++ [] ∧
      ∀ i n, decodeCommand s.op s.arg = .ok i → transaction s.params s.tmp i 1 = some (.read 0x40#7 n) →
        [0x6A#8, 0x8E#8].length = n := by
  refine ⟨started_inv _, rfl, rfl, rfl, rfl, ?_⟩
  rintro i n ⟨⟩ ⟨⟩; rfl

/-- Each of the seven reads. -/
theorem witness_SuccessfulReadRun :
    (∀ l, (coming started l).inputs = l ++ []) ∧
    ∀ i ∈ [Instr.measRh, .measT, .readSerial, .readDevid, .readFw, .readUser, .readHtr],
      ((readLength i = some 2 ∧ [0x6A#8, 0x8E#8].length = 2) ∨ (readLength i = some 1 ∧ [0x15#8].length = 1)) ∧
      (running i.opcode 0#8 0 none).phase = .run ∧
      decodeCommand (running i.opcode 0#8 0 none).op (running i.opcode 0#8 0 none).arg = .ok i ∧
      (running i.opcode 0#8 0 none).pc = 0 ∧ (running i.opcode 0#8 0 none).pend = none := by
  refine ⟨fun l => (List.append_nil l).symm, ?_⟩; decide

/-- Each of the four read-modify-writes. -/
theorem witness_SuccessfulRmwRun :
    (∀ l, (coming started l).inputs = l ++ []) ∧
    ∀ i ∈ [Instr.heaterOn, .heaterOff, .setHlvl 0x0F#8, .setRes 0x03#8],
      legalRmw i = true ∧ (i = .heaterOn → (0x3A#8).getLsbD 6 = false) ∧
      (running i.opcode i.argByte 0 none).phase = .run ∧
      decodeCommand (running i.opcode i.argByte 0 none).op (running i.opcode i.argByte 0 none).arg = .ok i ∧
      (running i.opcode i.argByte 0 none).pc = 0 ∧ (running i.opcode i.argByte 0 none).pend = none := by
  refine ⟨fun l => (List.append_nil l).symm, ?_⟩; decide

/-- An accept, a completion, an overrun and a clearing of OVR. -/
theorem witness_EachFlagHasItsWriters :
    (let s := coming idle [.hostWrite 0x03#7 1#32]
     ∃ t, s.Inv ∧ step s = .next t ∧ s.nextEvent.1 ≠ .blockReset ∧ s.busy = false ∧ cmdWord s s.nextEvent.1 ≠ none) ∧
    (let s := coming readDone [.sequencer]
     ∃ t, s.Inv ∧ step s = .next t ∧ s.nextEvent.1 ≠ .blockReset ∧ s.busy = true ∧ t.busy = false) ∧
    (let s := coming reading [.hostWrite 0x00#7 1#32]
     ∃ t, s.Inv ∧ step s = .next t ∧ s.nextEvent.1 ≠ .blockReset ∧ s.ovr = false ∧ t.ovr = true) ∧
    (let s := coming idle [.hostWrite 0x04#7 0x00000004#32]
     ∃ t, s.Inv ∧ step s = .next t ∧ s.nextEvent.1 ≠ .blockReset ∧ s.ovr = true ∧ t.ovr = false) :=
  ⟨⟨_, idle_inv _, rfl, by decide, rfl, by decide⟩, ⟨_, readDone_inv _, rfl, by decide, rfl, rfl⟩,
    ⟨_, reading_inv _, rfl, by decide, rfl, rfl⟩, ⟨_, idle_inv _, rfl, by decide, rfl, rfl⟩⟩

theorem witness_ResultsChangeOnlyOnSuccess :
    let s := coming readDone [.sequencer]
    ∃ t, step s = .next t ∧ s.nextEvent.1 ≠ .blockReset ∧
      ¬ (t.data16 = s.data16 ∧ t.dclass = s.dclass ∧ t.out = s.out) :=
  ⟨_, rfl, by decide, fun h => absurd h.1 (by decide)⟩

theorem witness_ResultsStandUntilTheNextAccept :
    let s := coming idle [.hostWrite 0x10#7 1#32]
    ∃ t, s.Inv ∧ s.busy = false ∧ step s = .next t ∧ s.nextEvent.1 ≠ .blockReset ∧ cmdWord s s.nextEvent.1 = none :=
  ⟨_, idle_inv _, rfl, rfl, by decide, rfl⟩

theorem witness_RunningCommandKeepsItsOperands :
    let s := coming started [.hostWrite 0x08#7 0x5678#32]
    ∃ t, s.busy = true ∧ step s = .next t ∧ s.nextEvent.1 ≠ .blockReset := ⟨_, rfl, rfl, by decide⟩

theorem witness_StepsKeepParametersAndExtendTrace :
    ∃ t, step (coming writing [.transport ⟨.success, []⟩]) = .next t ∧
      t.trace = [(.write 0x40#7 [0xE3#8] true, .writeDone .success)] := ⟨_, rfl, rfl⟩

/-- SuccessfulReadRun's own hypotheses, whole, for MEAS_T. -/
theorem witness_wholeRun :
    let s := coming started ([.sequencer, .transport ⟨.success, []⟩, .sequencer,
      .transport ⟨.success, [0x6A#8, 0x8E#8]⟩, .sequencer] ++ [])
    readLength .measT = some 2 ∧ s.Runs .measT ∧ s.pc = 0 ∧ s.pend = none ∧ [0x6A#8, 0x8E#8].length = 2 :=
  ⟨rfl, ⟨rfl, rfl⟩, rfl, rfl, rfl⟩

end Sys2Proof.Tests
end

section
/-! The scope rules of 00_scope.md: the rounding of R15, and the identity decode tables of R11 with their
defaults (R430, R431). -/

namespace Sys2Proof.Machine

/-! ### Rounding (R15) -/

/-- The rule's own formula, with the quotient taken over the rationals. -/
theorem rnd_eq_floor {n d : Int} (hd : 0 < d) : rnd n d = ⌊(2 * n + d : ℚ) / (2 * d)⌋ := by
  lift d to ℕ using hd.le
  have h := Rat.floor_intCast_div_natCast (2 * n + d) (2 * d)
  push_cast at h ⊢
  exact h.symm

/-- Rounding is the floor one half above: the form in which "nearest, ties toward plus infinity" is read off. -/
theorem rnd_eq_floor_add_half {n d : Int} (hd : 0 < d) : rnd n d = ⌊(n : ℚ) / d + 1 / 2⌋ := by
  have hd' : (d : ℚ) ≠ 0 := by exact_mod_cast hd.ne'
  have hsum : (2 * n + d : ℚ) / (2 * d) = n / d + 1 / 2 := by field_simp
  rw [rnd_eq_floor hd, hsum]

theorem rnd_sub_div_le_half {n d : Int} (hd : 0 < d) : (rnd n d : ℚ) - n / d ≤ 1 / 2 := by
  have h := Int.floor_le ((n : ℚ) / d + 1 / 2)
  rw [rnd_eq_floor_add_half hd]
  linarith

theorem div_sub_rnd_lt_half {n d : Int} (hd : 0 < d) : (n : ℚ) / d - rnd n d < 1 / 2 := by
  have h := Int.lt_floor_add_one ((n : ℚ) / d + 1 / 2)
  rw [rnd_eq_floor_add_half hd]
  linarith

/-! ### Well-formed decode tables (R11) -/

theorem keysDistinct_cons {b c : Byte} {t : List (Byte × Byte)} :
    Params.keysDistinct ((b, c) :: t) = true ↔ (∀ c', (b, c') ∉ t) ∧ Params.keysDistinct t = true := by
  simp [Params.keysDistinct]

theorem classesNonzero_iff {t : List (Byte × Byte)} :
    Params.classesNonzero t = true ↔ ∀ b c, (b, c) ∈ t → c ≠ 0#8 := by
  simp [Params.classesNonzero]

theorem wellFormed_iff {p : Params} :
    p.wellFormed = true ↔ p.bitsDistinct = true ∧
      (Params.keysDistinct p.devidTable = true ∧ Params.classesNonzero p.devidTable = true) ∧
      Params.keysDistinct p.fwTable = true ∧ Params.classesNonzero p.fwTable = true := by
  simp [Params.wellFormed, and_assoc]

/-! ### Looking a byte up (R11) -/

@[simp] theorem classOf_nil (b : Byte) : classOf [] b = 0#8 := rfl

@[simp] theorem classOf_cons (b k c : Byte) (t : List (Byte × Byte)) :
    classOf ((k, c) :: t) b = if b = k then c else classOf t b := rfl

theorem classOf_of_unlisted {t : List (Byte × Byte)} {b : Byte} (h : ∀ c, (b, c) ∉ t) : classOf t b = 0#8 := by
  induction t with
  | nil => rfl
  | cons row t ih =>
    obtain ⟨k, c⟩ := row
    have hk : b ≠ k := by
      rintro rfl
      exact h c List.mem_cons_self
    rw [classOf_cons, if_neg hk]
    exact ih fun c' hc' => h c' (List.mem_cons_of_mem _ hc')

theorem classOf_of_mem {t : List (Byte × Byte)} (hkeys : Params.keysDistinct t = true) {b c : Byte}
    (h : (b, c) ∈ t) : classOf t b = c := by
  induction t with
  | nil => cases h
  | cons row t ih =>
    obtain ⟨k, d⟩ := row
    obtain ⟨hfresh, htail⟩ := keysDistinct_cons.mp hkeys
    rcases List.mem_cons.mp h with heq | hmem
    · cases heq
      simp
    · have hk : b ≠ k := by
        rintro rfl
        exact hfresh c hmem
      rw [classOf_cons, if_neg hk, ih htail hmem]

theorem classOf_eq_zero_iff {t : List (Byte × Byte)} (hkeys : Params.keysDistinct t = true)
    (hclasses : Params.classesNonzero t = true) {b : Byte} : classOf t b = 0#8 ↔ ∀ c, (b, c) ∉ t := by
  refine ⟨fun hzero c hmem => ?_, classOf_of_unlisted⟩
  exact classesNonzero_iff.mp hclasses b c hmem ((classOf_of_mem hkeys hmem).symm.trans hzero)

/-! ### The default tables (R430, R431) -/

/-- R430: the two rows of class 1 share an arm, as both bytes are engineering samples. -/
theorem devidClass_default (b : Byte) :
    devidClass Params.default b =
      (if b = 0x00#8 ∨ b = 0xFF#8 then 1#8 else if b = 0x0D#8 then 2#8 else if b = 0x14#8 then 3#8
        else if b = 0x15#8 then 4#8 else 0#8) := by
  by_cases h : b = 0x00#8 <;> simp [devidClass, Params.default, h]

theorem fwClass_default (b : Byte) :
    fwClass Params.default b = (if b = 0xFF#8 then 1#8 else if b = 0x20#8 then 2#8 else 0#8) := rfl

/-! ### The obligations -/

/-- Settles O26: each table's lookup by the lemmas about `classOf`, and the default tables row by row. -/
theorem decodeTablesFollowTheirRules : Obligations.DecodeTablesFollowTheirRules := by
  refine ⟨fun p b hp => ?_, fun b => ⟨devidClass_default b, fwClass_default b⟩⟩
  obtain ⟨-, ⟨hdevKeys, hdevClasses⟩, hfwKeys, hfwClasses⟩ := wellFormed_iff.mp hp
  exact ⟨fun _ => classOf_of_mem hdevKeys, classOf_eq_zero_iff hdevKeys hdevClasses,
    fun _ => classOf_of_mem hfwKeys, classOf_eq_zero_iff hfwKeys hfwClasses⟩

/-- Settles O36: the rule's formula is the floor of n/d + 1/2, whose two bounds are the half bounds. -/
theorem rndRoundsToNearestTiesUp : Obligations.RndRoundsToNearestTiesUp := fun _ _ hd =>
  ⟨rnd_eq_floor hd, rnd_sub_div_le_half hd, div_sub_rnd_lt_half hd⟩

end Sys2Proof.Machine
end

section
/-! The host's accesses (10_state.md R101 to R107, R130, R134, R135; 20_memory.md R200 to R205): what a read and a
write do at each word of the register space, by the word's index `off / 4`. -/

namespace Sys2Proof.Machine

variable (s : State) (d : Dword) (v : Word) {off : Offset}

/-! ### Words and fields as numbers -/

/-- The bits of a concatenation do not overlap, so its number is a sum. -/
theorem toNat_append_eq_add {m n : Nat} (x : BitVec m) (y : BitVec n) :
    (x ++ y).toNat = x.toNat * 2 ^ n + y.toNat := by
  rw [BitVec.toNat_append, ← Nat.shiftLeft_add_eq_or_of_lt y.isLt, Nat.shiftLeft_eq]

theorem statWord_toNat :
    s.statWord.toNat =
      s.busy.toNat + 2 * s.valid.toNat + 4 * s.ovr.toNat + 256 * s.status.code.toNat + 65536 * s.lastOp.toNat := by
  simp only [State.statWord, toNat_append_eq_add, BitVec.toNat_ofBool, BitVec.toNat_ofNat]
  omega

theorem halfWord_low_toNat : (halfWord d false).toNat = d.toNat % 2 ^ 32 := by
  simp [halfWord]

theorem halfWord_high_toNat : (halfWord d true).toNat = d.toNat / 2 ^ 32 := by
  have := d.isLt
  simp only [halfWord, if_true, BitVec.extractLsb'_toNat, Nat.shiftRight_eq_div_pow]
  omega

@[simp] theorem halfWord_zero (hi : Bool) : halfWord 0#64 hi = 0#32 := by
  cases hi <;> rfl

@[simp] theorem halfWord_setLow_low : halfWord (setLow d v) false = v := BitVec.extractLsb'_append_eq_right

@[simp] theorem halfWord_setLow_high : halfWord (setLow d v) true = halfWord d true :=
  BitVec.extractLsb'_append_eq_left

@[simp] theorem halfWord_setHigh_high : halfWord (setHigh d v) true = v := BitVec.extractLsb'_append_eq_left

@[simp] theorem halfWord_setHigh_low : halfWord (setHigh d v) false = halfWord d false :=
  BitVec.extractLsb'_append_eq_right

/-- The OUT registers in the order of their table (R106). -/
theorem OutFile.get_of_lt (o : OutFile) {k : Nat} (h : k < 9) :
    o.get k = [o.cel, o.kel, o.fah, o.ran, o.new, o.del, o.rea, o.rom, o.rh][k] := by
  interval_cases k <;> rfl

theorem OutFile.get_of_ge (o : OutFile) {k : Nat} (h : 9 ≤ k) : o.get k = 0#64 := by
  obtain ⟨j, rfl⟩ := Nat.exists_eq_add_of_le' h
  rfl

/-! ### Reads -/

theorem memRead_cmd (h : off.toNat / 4 = 0) : s.memRead off = 0#32 := by
  simp only [State.memRead, wordIndex_eq, h]

theorem memRead_stat (h : off.toNat / 4 = 1) : s.memRead off = s.statWord := by
  simp only [State.memRead, wordIndex_eq, h]

theorem memRead_opnd (h : off.toNat / 4 = 2) : s.memRead off = s.opndRaw.setWidth 32 := by
  simp only [State.memRead, wordIndex_eq, h]

theorem memRead_result (h : off.toNat / 4 = 3) : s.memRead off = 0#8 ++ s.dclass ++ s.data16 := by
  simp only [State.memRead, wordIndex_eq, h]

theorem memRead_celinLo (h : off.toNat / 4 = 4) : s.memRead off = halfWord s.celinReg false := by
  simp only [State.memRead, wordIndex_eq, h]

theorem memRead_celinHi (h : off.toNat / 4 = 5) : s.memRead off = halfWord s.celinReg true := by
  simp only [State.memRead, wordIndex_eq, h]

theorem memRead_out {k : Nat} (h : off.toNat / 4 = k + 8) :
    s.memRead off = halfWord (s.out.get (k / 2)) (decide (k % 2 = 1)) := by
  simp only [State.memRead, wordIndex_eq, h]

theorem memRead_outLo {k : Nat} (h : off.toNat / 4 = 8 + 2 * k) : s.memRead off = halfWord (s.out.get k) false := by
  rw [memRead_out s (h.trans (Nat.add_comm _ _))]
  simp

theorem memRead_outHi {k : Nat} (h : off.toNat / 4 = 9 + 2 * k) : s.memRead off = halfWord (s.out.get k) true := by
  rw [memRead_out s (k := 2 * k + 1) (by omega), show (2 * k + 1) / 2 = k by omega,
    show (2 * k + 1) % 2 = 1 by omega]
  rfl

theorem memRead_unmapped (h : off.toNat / 4 = 6 ∨ off.toNat / 4 = 7 ∨ 26 ≤ off.toNat / 4) :
    s.memRead off = 0#32 := by
  rcases h with h | h | h
  · simp only [State.memRead, wordIndex_eq, h]
  · simp only [State.memRead, wordIndex_eq, h]
  · rw [memRead_out s (k := off.toNat / 4 - 8) (by omega), OutFile.get_of_ge _ (by omega), halfWord_zero]

theorem memRead_opnd_toNat (h : off.toNat / 4 = 2) : (s.memRead off).toNat = s.opndRaw.toNat := by
  rw [memRead_opnd s h, BitVec.toNat_setWidth_of_le (by decide)]

/-- OPND reads at its own word only. -/
theorem memRead_with_opndRaw (a : Half) (h : off.toNat / 4 ≠ 2) :
    State.memRead off { s with opndRaw := a } = s.memRead off := by
  simp only [State.memRead, wordIndex_eq]
  split
  case h_3 => contradiction
  all_goals rfl

/-- CELIN reads at its own two words only. -/
theorem memRead_with_celinReg (hlo : off.toNat / 4 ≠ 4) (hhi : off.toNat / 4 ≠ 5) :
    State.memRead off { s with celinReg := d } = s.memRead off := by
  simp only [State.memRead, wordIndex_eq]
  split
  case h_5 => contradiction
  case h_6 => contradiction
  all_goals rfl

/-! ### Writes -/

theorem memWrite_cmd (h : off.toNat / 4 = 0) : s.memWrite off v = s.writeCmd v := by
  simp only [State.memWrite, wordIndex_eq, h]

theorem memWrite_stat (h : off.toNat / 4 = 1) : s.memWrite off v = s.writeStat v := by
  simp only [State.memWrite, wordIndex_eq, h]

theorem memWrite_opnd (h : off.toNat / 4 = 2) : s.memWrite off v = { s with opndRaw := v.extractLsb' 0 16 } := by
  simp only [State.memWrite, wordIndex_eq, h]

theorem memWrite_celinLo (h : off.toNat / 4 = 4) :
    s.memWrite off v = { s with celinReg := setLow s.celinReg v } := by
  simp only [State.memWrite, wordIndex_eq, h]

theorem memWrite_celinHi (h : off.toNat / 4 = 5) :
    s.memWrite off v = { s with celinReg := setHigh s.celinReg v } := by
  simp only [State.memWrite, wordIndex_eq, h]

theorem memWrite_elsewhere (h : off.toNat / 4 = 3 ∨ 6 ≤ off.toNat / 4) : s.memWrite off v = s := by
  have hi := wordIndex_eq off
  rcases memWrite_cases off v s with ⟨ho, -⟩ | ⟨ho, -⟩ | ⟨ho, -⟩ | ⟨ho, -⟩ | ⟨_, ho, -⟩ | ⟨-, he⟩
  case inr.inr.inr.inr.inr => exact he
  all_goals omega

theorem writeCmd_idle (h : s.busy = false) : s.writeCmd v = s.accept v := by
  simp [State.writeCmd, h]

theorem writeCmd_busy (h : s.busy = true) : s.writeCmd v = s.setOvr := by
  simp [State.writeCmd, h]

/-- A host write that comes next is that write. -/
theorem step_hostWrite {s : State} {v : Word} {rest : List Event} (h : s.inputs = .hostWrite off v :: rest) :
    step s = .next (State.memWrite off v { s with inputs := rest }) :=
  step_listed h

/-! ### The obligations -/

/-- Settles O6: the word at each index as a number. -/
theorem hostReadsFollowTheRegisterMap : Obligations.HostReadsFollowTheRegisterMap := by
  intro s off
  refine ⟨memRead_cmd s, fun h => ?stat, memRead_opnd_toNat s, fun h => ?result, fun h => ?lo, fun h => ?hi,
    fun k hk => ⟨fun h => ?outLo, fun h => ?outHi⟩, memRead_unmapped s⟩
  case stat => rw [memRead_stat s h, statWord_toNat]
  case result =>
    rw [memRead_result s h]
    simp only [toNat_append_eq_add, BitVec.toNat_ofNat]
    omega
  case lo => rw [memRead_celinLo s h, halfWord_low_toNat]
  case hi => rw [memRead_celinHi s h, halfWord_high_toNat]
  case outLo => rw [memRead_outLo s h, halfWord_low_toNat, OutFile.get_of_lt _ hk]
  case outHi => rw [memRead_outHi s h, halfWord_high_toNat, OutFile.get_of_lt _ hk]

/-- Settles O8: the three operand words in turn; the other half of CELIN is kept by `setLow` and `setHigh`. -/
theorem operandWordsReadBack : Obligations.OperandWordsReadBack := by
  rintro s off off' v (h | h | h)
  · rw [memWrite_opnd s v h, h]
    refine ⟨memRead_with_opndRaw s _, fun h' _ => ?_, fun _ hne => absurd rfl hne⟩
    rw [memRead_opnd_toNat _ h', BitVec.extractLsb'_toNat, Nat.shiftRight_zero]
  · rw [memWrite_celinLo s v h, h]
    refine ⟨fun hne => ?_, fun _ h2 => absurd h2 (by decide), fun h' _ => ?_⟩
    · by_cases h5 : off'.toNat / 4 = 5
      · simp [memRead_celinHi _ h5]
      · exact memRead_with_celinReg s _ hne h5
    · simp [memRead_celinLo _ h']
  · rw [memWrite_celinHi s v h, h]
    refine ⟨fun hne => ?_, fun _ h2 => absurd h2 (by decide), fun h' _ => ?_⟩
    · by_cases h4 : off'.toNat / 4 = 4
      · simp [memRead_celinLo _ h4]
      · exact memRead_with_celinReg s _ h4 hne
    · simp [memRead_celinHi _ h']

/-- Settles O3: a write to CMD of an idle block is `State.accept`. -/
theorem acceptLatchesTheCommand : Obligations.AcceptLatchesTheCommand := by
  intro s off v rest hb ho hin
  rw [step_hostWrite hin, memWrite_cmd _ v ho, writeCmd_idle { s with inputs := rest } v hb]
  rfl

/-- Settles O4: a write to CMD of a busy block is `State.setOvr`. -/
theorem overrunSetsOnlyOvr : Obligations.OverrunSetsOnlyOvr := by
  intro s off v rest hb ho hin
  rw [step_hostWrite hin, memWrite_cmd _ v ho, writeCmd_busy { s with inputs := rest } v hb]
  rfl

/-- Settles O5: the write at each index. -/
theorem hostWritesActOnlyWhereTheyMay : Obligations.HostWritesActOnlyWhereTheyMay := by
  intro s off v rest hin
  rw [step_hostWrite hin]
  refine ⟨fun h hv => ?_, fun h hv => ?_, fun h => ?_, fun h => ?_, fun h => ?_, fun h => ?_⟩
  · rw [memWrite_stat _ v h, State.writeStat, hv, Bool.not_true, Bool.and_false]
  · rw [memWrite_stat _ v h, State.writeStat, hv, Bool.not_false, Bool.and_true]
  · rw [memWrite_opnd _ v h]
  · rw [memWrite_celinLo _ v h, setLow]
  · rw [memWrite_celinHi _ v h, setHigh]
  · rw [memWrite_elsewhere _ v h]

end Sys2Proof.Machine
end

section
/-! The agents' steps (10_state.md R132, R133, R136, R140; 70_reset_and_hazards.md R700, R701): what the sequencer's
and the transport's events do when they are enabled and when they are not, and block reset. -/

namespace Sys2Proof.Machine

variable {s : State} {i : Instr} {r : Request} {a : Answer} {rest : List Event}

theorem sequencerStep_runs (hi : s.Runs i) (hp : s.pend = none) : sequencerStep s = exec i s := by
  obtain ⟨hrun, hd⟩ := hi
  simp [sequencerStep, State.sequencerEnabled, runLatched, hrun, hp, hd]

theorem sequencerStep_disabled (h : s.phase = .idle ∨ s.pend ≠ none) : sequencerStep s = .next s := by
  rcases sequencerStep_cases s with ⟨hrun, hp, -⟩ | ⟨-, he⟩
  · simp [hrun, hp] at h
  · exact he

theorem transportStep_answers (hp : s.pend = some r) (ha : lawfulAnswer r a = true) :
    s.transportStep a = s.respond r a := by
  simp [State.transportStep, hp, ha]

theorem transportStep_disabled (hp : s.pend = none) : s.transportStep a = s := by
  simp [State.transportStep, hp]

/-- The sequencer's event on a running command with no outstanding request. -/
theorem step_sequencer (h : s.inputs = .sequencer :: rest) (hi : s.Runs i) (hp : s.pend = none) :
    step s = exec i { s with inputs := rest } :=
  (step_listed h).trans (sequencerStep_runs (s := { s with inputs := rest }) hi hp)

theorem step_sequencer_disabled (h : s.inputs = .sequencer :: rest) (hd : s.phase = .idle ∨ s.pend ≠ none) :
    step s = .next { s with inputs := rest } :=
  (step_listed h).trans (sequencerStep_disabled (s := { s with inputs := rest }) hd)

/-- The transport's event on an outstanding request. -/
theorem step_transport (h : s.inputs = .transport a :: rest) (hp : s.pend = some r) (ha : lawfulAnswer r a = true) :
    step s = .next (State.respond r a { s with inputs := rest }) := by
  rw [step_listed h, eventStep, transportStep_answers (s := { s with inputs := rest }) hp ha]

theorem step_transport_disabled (h : s.inputs = .transport a :: rest) (hp : s.pend = none) :
    step s = .next { s with inputs := rest } := by
  rw [step_listed h, eventStep, transportStep_disabled (s := { s with inputs := rest }) hp]

/-- The law of R215, read off for a read. -/
theorem lawfulAnswer_read {addr : BusAddr} {n : Nat} :
    lawfulAnswer (.read addr n) a = true ↔ a.status ≠ .success ∨ a.bytes.length = n := by
  simp [lawfulAnswer]

/-! ### The obligations -/

/-- Settles O1: every row of R140's table. -/
theorem resetHoldsTheResetValues : Obligations.ResetHoldsTheResetValues := by
  refine ⟨rfl, rfl, rfl, rfl, rfl, rfl, rfl, rfl, rfl, fun k hk => ?_, rfl, rfl, rfl, rfl, rfl, rfl, rfl, rfl⟩
  interval_cases k <;> rfl

/-- Settles O2: the event is `State.blockReset`, whose fields are those of `State.resetWith`. -/
theorem blockResetAbandonsAndClears : Obligations.BlockResetAbandonsAndClears := fun _ _ hin => step_listed hin

/-- Settles O17: the enabled sequencer runs the latched command. -/
theorem stepRunsTheLatchedCommand : Obligations.StepRunsTheLatchedCommand :=
  fun _ _ _ hin hrun hp hd _ => step_sequencer hin ⟨hrun, hd⟩ hp

/-- Settles O18: both kinds of request by `step_transport`; every answer to a write is lawful. -/
theorem transportAnswerIsRecordedAndCounted : Obligations.TransportAnswerIsRecordedAndCounted :=
  fun _ _ _ hin => ⟨fun _ _ _ hp => step_transport hin hp rfl,
    fun _ _ hp ha => step_transport hin hp (lawfulAnswer_read.mpr ha)⟩

/-- Settles O19: each disabled agent in turn. -/
theorem disabledAgentsDoNothing : Obligations.DisabledAgentsDoNothing :=
  fun _ _ => ⟨step_sequencer_disabled, fun _ => step_transport_disabled, fun _ hin => step_listed hin⟩

end Sys2Proof.Machine
end

section
/-! What a step may change, read off the cases of a step (`step_cases`): the flags (10_state.md R108), the results
(R104, R106), the latched command (R209), the build parameters (D27) and TRACE (R125). -/

namespace Sys2Proof.Machine

open Sys2Proof.Statements

variable {s t : State} {e : Event} {off : Offset} {v : Word}

/-! ### The word an event writes to CMD or STAT -/

theorem offset_word_cmd (q : HostReg) : q.offset.toNat / 4 = 0 ↔ q = .cmd := by
  cases q with
  | outLo k | outHi k => fin_cases k <;> decide
  | cmd | stat | opnd | result | celinLo | celinHi => decide

theorem offset_word_stat (q : HostReg) : q.offset.toNat / 4 = 1 ↔ q = .stat := by
  cases q with
  | outLo k | outHi k => fin_cases k <;> decide
  | cmd | stat | opnd | result | celinLo | celinHi => decide

/-- A program's next write, seen from the one register `q` whose word has the index `n`. -/
theorem programWord_of_write {q : HostReg} {n : Nat} (hq : ∀ r : HostReg, r.offset.toNat / 4 = n ↔ r = q)
    {l : List HostStmt} (h : programWrite l = some (off, v)) :
    programWord q l = if off.toNat / 4 = n then some v else none :=
  match l, h with
  | .cmd c :: _, h => by
    cases h
    simp only [programWord, hq, eq_comm]
  | .wr r w :: _, h => by
    cases h
    simp only [programWord, hq]

theorem cmdWord_of_write (h : hostWriteOf s e = some (off, v)) :
    cmdWord s e = if off.toNat / 4 = 0 then some v else none := by
  cases e with
  | hostWrite => cases h; rfl
  | hostProgram => exact programWord_of_write offset_word_cmd h
  | _ => cases h

theorem statWrite_of_write (h : hostWriteOf s e = some (off, v)) :
    statWrite s e = if off.toNat / 4 = 1 then some v else none := by
  cases e with
  | hostWrite => cases h; rfl
  | hostProgram => exact programWord_of_write offset_word_stat h
  | _ => cases h

theorem programWord_of_no_write {q : HostReg} {l : List HostStmt} (h : programWrite l = none) :
    programWord q l = none :=
  match l, h with
  | [], _ => rfl
  | .rd _ :: _, _ => rfl
  | .wait :: _, _ => rfl

theorem cmdWord_of_no_write (h : hostWriteOf s e = none) : cmdWord s e = none := by
  cases e with
  | hostProgram => exact programWord_of_no_write h
  | hostWrite => cases h
  | _ => rfl

theorem statWrite_of_no_write (h : hostWriteOf s e = none) : statWrite s e = none := by
  cases e with
  | hostProgram => exact programWord_of_no_write h
  | hostWrite => cases h
  | _ => rfl

/-! ### The obligations -/

/-- Settles O58: only an answer appends to TRACE, and an answer is lawful. -/
theorem stepsKeepParametersAndExtendTrace : Obligations.StepsKeepParametersAndExtendTrace := by
  intro s t h
  obtain ⟨u, l, n, p, rd, hu, rfl⟩ := step_cases h
  generalize s.nextEvent.1 = e at hu
  cases hu with
  | answer r a hp ha => exact ⟨rfl, .inr ⟨r, _, hp, answersRequest_responseTo r a ha, rfl, rfl, rfl⟩⟩
  | body u _ _ hbody => cases hbody <;> exact ⟨rfl, .inl rfl⟩
  | _ => exact ⟨rfl, .inl rfl⟩

/-- Settles O57: only accept and block reset write the latched command, and accept needs BUSY = 0. -/
theorem runningCommandKeepsItsOperands : Obligations.RunningCommandKeepsItsOperands := by
  intro s t hb h hne
  obtain ⟨u, l, n, p, rd, hu, rfl⟩ := step_cases h
  generalize s.nextEvent.1 = e at hu hne
  cases hu with
  | reset => exact absurd rfl hne
  | accept _ off v _ _ hidle => cases hb.symm.trans hidle
  | body u _ _ hbody => cases hbody <;> exact ⟨rfl, rfl, rfl, rfl⟩
  | _ => exact ⟨rfl, rfl, rfl, rfl⟩

/-- Settles O55: only a body step that succeeds writes RESULT or OUT. -/
theorem resultsChangeOnlyOnSuccess : Obligations.ResultsChangeOnlyOnSuccess := by
  intro s t h hne hchange
  obtain ⟨u, l, n, p, rd, hu, rfl⟩ := step_cases h
  generalize s.nextEvent.1 = e at hu hne
  cases hu with
  | reset => exact absurd rfl hne
  | body u hrun _ hbody =>
    cases hbody with
    | succeeds d c o => exact ⟨rfl, hrun, rfl, rfl, rfl⟩
    | asks | fails => exact absurd ⟨rfl, rfl, rfl⟩ hchange
  | _ => exact absurd ⟨rfl, rfl, rfl⟩ hchange

/-- Settles O54: the flags in each case of a step; the invariant gives BUSY = 1 where a body runs. -/
theorem eachFlagHasItsWriters : Obligations.EachFlagHasItsWriters := by
  intro s t hinv h hne
  obtain ⟨u, l, n, p, rd, hu, rfl⟩ := step_cases h
  generalize s.nextEvent.1 = e at hu hne
  cases hu with
  | reset => exact absurd rfl hne
  | body u hrun _ hbody =>
    have hb := hinv.busy_run.mpr hrun
    cases hbody <;> simp [hb, cmdWord, statWrite]
  | answer r a => simp [cmdWord, statWrite]
  | accept _ off v hw ho hb => simp [hb, cmdWord_of_write hw, statWrite_of_write hw, ho, opField]
  | overrun _ off v hw ho hb => simp [hb, cmdWord_of_write hw, statWrite_of_write hw, ho]
  | stat _ off v hw ho => simp +contextual [cmdWord_of_write hw, statWrite_of_write hw, ho]
  | operand _ off v hw ho =>
    have h0 : off.toNat / 4 ≠ 0 := by omega
    have h1 : off.toNat / 4 ≠ 1 := by omega
    simp [cmdWord_of_write hw, statWrite_of_write hw, h0, h1]
  | quiet _ hw _ => simp [cmdWord_of_no_write hw, statWrite_of_no_write hw]

end Sys2Proof.Machine
end

section
/-! What a running command depends on (10_state.md R124, R125, R209): a change of state in fields that no body
reads or writes commutes with every sequencer step. -/

namespace Sys2Proof.Machine

open Sys2Proof.Statements

/-- A change of state that the command bodies do not see: it keeps what they read and commutes with what they
write. -/
structure Unseen (f : State → State) : Prop where
  params : ∀ s, (f s).params = s.params
  pc : ∀ s, (f s).pc = s.pc
  tmp : ∀ s, (f s).tmp = s.tmp
  resp : ∀ s, (f s).resp = s.resp
  opnd : ∀ s, (f s).opnd = s.opnd
  celin : ∀ s, (f s).celin = s.celin
  issue : ∀ r s, f (State.issue r s) = State.issue r (f s)
  complete : ∀ c s, f (State.complete c s) = State.complete c (f s)
  setTmp : ∀ b s, f { s with tmp := b } = { f s with tmp := b }
  writeResult : ∀ d c s, f (State.writeResult d c s) = State.writeResult d c (f s)
  writeTemps : ∀ c s, f (State.writeTemps c s) = State.writeTemps c (f s)
  writeRh : ∀ h s, f (State.writeRh h s) = State.writeRh h (f s)

theorem unseen_repaint (p : State) : Unseen fun s => repaint s p where
  params _ := rfl
  pc _ := rfl
  tmp _ := rfl
  resp _ := rfl
  opnd _ := rfl
  celin _ := rfl
  issue _ _ := rfl
  complete _ _ := rfl
  setTmp _ _ := rfl
  writeResult _ _ _ := rfl
  writeTemps _ _ := rfl
  writeRh _ _ := rfl

section
variable {f : State → State} (hf : Unseen f) (s : State)
include hf

theorem Unseen.raiseStatus (c : Status) : raiseStatus c (f s) = mapNext f (raiseStatus c s) :=
  congrArg Host.Outcome.next (hf.complete c s).symm

theorem Unseen.busWrite (bytes : List Byte) (stop : Bool) :
    busWrite bytes stop (f s) = mapNext f (busWrite bytes stop s) :=
  congrArg Host.Outcome.next (hf.issue _ s).symm

theorem Unseen.busRead (n : Nat) : busRead n (f s) = mapNext f (busRead n s) :=
  congrArg Host.Outcome.next (hf.issue _ s).symm

theorem Unseen.finish {u v : State} (h : v = f u) : finish v = mapNext f (finish u) := by
  subst h
  exact congrArg Host.Outcome.next (hf.complete .success u).symm

theorem Unseen.afterWrite {o o' : Out} (h : o' = mapNext f o) :
    afterWrite (f s) o' = mapNext f (afterWrite s o) := by
  simp only [Machine.afterWrite, hf.resp]
  split
  · split
    · exact h
    · exact hf.raiseStatus s _
  · rfl
  · rfl

theorem Unseen.afterRead1 {o o' : Byte → Out} (h : ∀ b, o' b = mapNext f (o b)) :
    afterRead1 (f s) o' = mapNext f (afterRead1 s o) := by
  simp only [Machine.afterRead1, hf.resp]
  split
  · split
    · split
      · exact h _
      · rfl
    · exact hf.raiseStatus s _
  · rfl
  · rfl

theorem Unseen.afterRead2 {o o' : Byte → Byte → Out} (h : ∀ b0 b1, o' b0 b1 = mapNext f (o b0 b1)) :
    afterRead2 (f s) o' = mapNext f (afterRead2 s o) := by
  simp only [Machine.afterRead2, hf.resp]
  split
  · split
    · split
      · exact h _ _
      · rfl
    · exact hf.raiseStatus s _
  · rfl
  · rfl

theorem Unseen.read1Body {cmd : List Byte} {results : Byte → State → State}
    (h : ∀ b u, results b (f u) = f (results b u)) :
    read1Body cmd results (f s) = mapNext f (read1Body cmd results s) := by
  simp only [Machine.read1Body, hf.pc, hf.params]
  split
  · exact hf.busWrite s _ _
  · exact hf.afterWrite s (hf.busRead s _)
  · exact hf.afterRead1 s fun b => hf.finish (h b s)
  · rfl

theorem Unseen.read2Body {cmd : List Byte} {results : Byte → Byte → State → State}
    (h : ∀ b0 b1 u, results b0 b1 (f u) = f (results b0 b1 u)) :
    read2Body cmd results (f s) = mapNext f (read2Body cmd results s) := by
  simp only [Machine.read2Body, hf.pc, hf.params]
  split
  · exact hf.busWrite s _ _
  · exact hf.afterWrite s (hf.busRead s _)
  · exact hf.afterRead2 s fun b0 b1 => hf.finish (h b0 b1 s)
  · rfl

theorem Unseen.writeBody (bytes : List Byte) (d : Half) :
    writeBody bytes d (f s) = mapNext f (writeBody bytes d s) := by
  simp only [Machine.writeBody, hf.pc]
  split
  · exact hf.busWrite s _ _
  · exact hf.afterWrite s (hf.finish (hf.writeResult _ _ s).symm)
  · rfl

theorem Unseen.rmwBody (rc wc : Byte) (refusal : Byte → Option Status) (new : Byte → Byte) :
    rmwBody rc wc refusal new (f s) = mapNext f (rmwBody rc wc refusal new s) := by
  simp only [Machine.rmwBody, hf.pc, hf.params, hf.tmp]
  split
  · exact hf.busWrite s _ _
  · exact hf.afterWrite s (hf.busRead s _)
  · refine hf.afterRead1 s fun b => ?_
    have hset := hf.setTmp b s
    simp only [hf.params, hf.pc] at hset
    rw [← hset]
    split
    · exact hf.raiseStatus _ _
    · exact hf.busWrite _ _ _
  · exact hf.afterWrite s (hf.finish (hf.writeResult _ _ s).symm)
  · rfl

theorem Unseen.validated {illegal : Bool} {code : Status} {body : State → Out}
    (h : body (f s) = mapNext f (body s)) :
    validated illegal code body (f s) = mapNext f (validated illegal code body s) := by
  simp only [Machine.validated, hf.pc]
  split
  · exact hf.raiseStatus s _
  · exact h

/-- One sequencer step of any command commutes with a change that the bodies do not see. -/
theorem Unseen.exec (i : Instr) : exec i (f s) = mapNext f (exec i s) := by
  have result (d : Half) (c : Byte) (u : State) := (hf.writeResult d c u).symm
  cases i with
  | measRh =>
    refine hf.read2Body s (results := fun b0 b1 u => (u.writeResult _ _).writeRh _) fun b0 b1 u => ?_
    rw [hf.writeRh, hf.writeResult]
  | measT =>
    refine hf.read2Body s (results := fun b0 b1 u => (u.writeResult _ _).writeTemps _) fun b0 b1 u => ?_
    rw [hf.writeTemps, hf.writeResult]
  | readSerial => exact hf.read2Body s fun _ _ => result _ _
  | readDevid =>
    refine hf.read1Body s (results := fun b u => u.writeResult (zext16 b) (devidClass u.params b)) fun b u => ?_
    rw [hf.writeResult, hf.params]
  | readFw =>
    refine hf.read1Body s (results := fun b u => u.writeResult (zext16 b) (fwClass u.params b)) fun b u => ?_
    rw [hf.writeResult, hf.params]
  | readUser | readHtr => exact hf.read1Body s fun _ => result _ _
  | softReset | writeUser | writeHtr => exact hf.writeBody s _ _
  | heaterOn => exact hf.rmwBody s _ _ _ _
  | heaterOff => exact hf.rmwBody s _ _ (fun _ => none) _
  | setHlvl => exact hf.validated s (hf.rmwBody s _ _ _ _)
  | setRes =>
    simp only [Machine.exec, execSetRes, hf.params]
    exact hf.validated s (hf.rmwBody s _ _ _ _)
  | cvtT => exact hf.finish (by rw [hf.writeTemps, hf.opnd])
  | cvtRh => exact hf.finish (by rw [hf.writeRh, hf.opnd])
  | cvtC => exact hf.finish (by rw [hf.writeTemps, hf.celin])

end

/-- Settles O59: no body sees what `repaint` changes. -/
theorem commandsDependOnLatchedStateOnly : Obligations.CommandsDependOnLatchedStateOnly :=
  fun i s p => (unseen_repaint p).exec s i

end Sys2Proof.Machine
end

section
/-! The table of transaction sequences (30_encoding.md R307) against the command bodies (10_state.md R132): each
command's body and its row of the table have one of six shapes, and a body that is resumed at a point of its row
goes on: it asks for the row's next entry or it completes. -/

namespace Sys2Proof.Machine

open Sys2Proof.Statements

variable {s : State} {p : Params} {tmp : Byte} {i : Instr} {k : Nat} {r : Request}

/-! ### The rows of the table -/

theorem readTransaction_some {cmd : List Byte} {n : Nat} (h : readTransaction p cmd n k = some r) :
    (k = 0 ∧ r = busWriteReq cmd p.readStop) ∨ (k = 1 ∧ r = busReadReq n) :=
  match k, h with
  | 0, h => .inl ⟨rfl, (Option.some.inj h).symm⟩
  | 1, h => .inr ⟨rfl, (Option.some.inj h).symm⟩

theorem writeTransaction_some {bytes : List Byte} (h : writeTransaction bytes k = some r) :
    k = 0 ∧ r = busWriteReq bytes true :=
  match k, h with
  | 0, h => ⟨rfl, (Option.some.inj h).symm⟩

theorem rmwTransaction_some {rc : Byte} {third : Option (List Byte)} (h : rmwTransaction p rc third k = some r) :
    (k = 0 ∧ r = busWriteReq [rc] p.readStop) ∨ (k = 1 ∧ r = busReadReq 1) ∨
      (k = 2 ∧ ∃ bytes, r = busWriteReq bytes true) :=
  match k, h with
  | 0, h => .inl ⟨rfl, (Option.some.inj h).symm⟩
  | 1, h => .inr (.inl ⟨rfl, (Option.some.inj h).symm⟩)
  | 2, h => by
    obtain ⟨bytes, -, hr⟩ := Option.map_eq_some_iff.mp h
    exact .inr (.inr ⟨rfl, bytes, hr.symm⟩)

/-- What a read-modify-write writes back for the byte `b`, if it does not refuse it (R500 to R503). -/
def writeBack (wc : Byte) (refusal : Byte → Option Status) (new : Byte → Byte) (b : Byte) : Option (List Byte) :=
  if (refusal b).isSome then none else some [wc, new b]

/-- The body of a command together with its row of the table of R307, with build parameters `p`. -/
inductive BodyShape (p : Params) (i : Instr) : Prop
  /-- a command write and a read of one byte -/
  | read1 (cmd : List Byte) (results : Byte → State → State) (hlen : readLength i = some 1)
      (hrow : ∀ tmp k, transaction p tmp i k = readTransaction p cmd 1 k)
      (hbody : ∀ s : State, s.params = p → exec i s = read1Body cmd results s)
      (hwrites : ∀ b, WritesResults (results b)) (hdata : ∀ b s, (results b s).data16 = zext16 b)
  /-- a command write and a read of two bytes -/
  | read2 (cmd : List Byte) (results : Byte → Byte → State → State) (hlen : readLength i = some 2)
      (hrow : ∀ tmp k, transaction p tmp i k = readTransaction p cmd 2 k)
      (hbody : ∀ s : State, s.params = p → exec i s = read2Body cmd results s)
      (hwrites : ∀ b0 b1, WritesResults (results b0 b1))
      (hdata : ∀ b0 b1 s, (results b0 b1 s).data16 = bigEndian b0 b1)
  /-- one write -/
  | write (bytes : List Byte) (d : Half) (hlen : readLength i = none)
      (hrow : ∀ tmp k, transaction p tmp i k = writeTransaction bytes k)
      (hbody : ∀ s : State, s.params = p → exec i s = writeBody bytes d s)
  /-- a read-modify-write whose argument is legal -/
  | rmw (rc wc : Byte) (refusal : Byte → Option Status) (new : Byte → Byte) (hlen : readLength i = none)
      (hrow : ∀ tmp k, transaction p tmp i k = rmwTransaction p rc (writeBack wc refusal new tmp) k)
      (hbody : ∀ s : State, s.params = p → exec i s = rmwBody rc wc refusal new s)
  /-- a read-modify-write whose argument is rejected before any bus traffic -/
  | rejects (code : Status) (hlen : readLength i = none) (hrow : ∀ tmp k, transaction p tmp i k = none)
      (hbody : ∀ s : State, s.pc = 0 → exec i s = raiseStatus code s)
  /-- a conversion, which issues no transaction -/
  | converts (f : State → State) (hlen : readLength i = none) (hrow : ∀ tmp k, transaction p tmp i k = none)
      (hbody : ∀ s : State, exec i s = finish (f s))

theorem validated_legal (code : Status) (body : State → Host.Outcome State Fault Refusal) (s : State) :
    validated false code body s = body s := by
  simp [validated]

theorem validated_illegal (code : Status) (body : State → Host.Outcome State Fault Refusal) (h : s.pc = 0) :
    validated true code body s = raiseStatus code s := by
  simp [validated, h]

/-- Every command has one of the six shapes. -/
theorem bodyShape (p : Params) (i : Instr) : BodyShape p i := by
  cases i with
  | measRh => exact .read2 _ _ rfl (fun _ _ => rfl) (fun _ _ => rfl) (fun _ _ _ => ⟨_, _, _, rfl⟩) fun _ _ _ => rfl
  | measT => exact .read2 _ _ rfl (fun _ _ => rfl) (fun _ _ => rfl) (fun _ _ _ => ⟨_, _, _, rfl⟩) fun _ _ _ => rfl
  | readSerial => exact .read2 _ _ rfl (fun _ _ => rfl) (fun _ _ => rfl) (fun _ _ _ => ⟨_, _, _, rfl⟩) fun _ _ _ => rfl
  | readDevid => exact .read1 _ _ rfl (fun _ _ => rfl) (fun _ _ => rfl) (fun _ _ => ⟨_, _, _, rfl⟩) fun _ _ => rfl
  | readFw => exact .read1 _ _ rfl (fun _ _ => rfl) (fun _ _ => rfl) (fun _ _ => ⟨_, _, _, rfl⟩) fun _ _ => rfl
  | softReset => exact .write _ _ rfl (fun _ _ => rfl) fun _ _ => rfl
  | readUser => exact .read1 _ _ rfl (fun _ _ => rfl) (fun _ _ => rfl) (fun _ _ => ⟨_, _, _, rfl⟩) fun _ _ => rfl
  | writeUser arg => exact .write _ _ rfl (fun _ _ => rfl) fun _ _ => rfl
  | readHtr => exact .read1 _ _ rfl (fun _ _ => rfl) (fun _ _ => rfl) (fun _ _ => ⟨_, _, _, rfl⟩) fun _ _ => rfl
  | writeHtr arg => exact .write _ _ rfl (fun _ _ => rfl) fun _ _ => rfl
  | heaterOn =>
    refine .rmw _ _ _ _ rfl (fun tmp k => ?_) fun _ _ => rfl
    cases h : voltageLow tmp <;> simp [transaction, writeBack, h]
  | heaterOff =>
    exact .rmw cmdReadUser cmdWriteUser (fun _ => none) heaterOffByte rfl (fun _ _ => rfl) fun _ _ => rfl
  | setHlvl arg =>
    cases h : levelIllegal arg with
    | false =>
      refine .rmw cmdReadHeater cmdWriteHeater (fun _ => none) (levelByte arg) rfl (fun _ _ => ?_) fun _ _ => ?_
      · simp [transaction, h, writeBack]
      · simp [exec, execSetHlvl, h, validated_legal]
    | true =>
      refine .rejects .levelOutOfRange rfl (fun _ _ => ?_) fun _ hpc => ?_
      · simp [transaction, h]
      · simp [exec, execSetHlvl, h, validated_illegal _ _ hpc]
  | setRes arg =>
    cases h : resolutionIllegal arg with
    | false =>
      refine .rmw (resReadCommand p) (resWriteCommand p) (fun _ => none) (resolutionByte p arg) rfl
        (fun _ _ => ?_) ?_
      · simp [transaction, h, writeBack]
      · rintro s rfl
        simp [exec, execSetRes, h, validated_legal]
    | true =>
      refine .rejects .invalidResolution rfl (fun _ _ => ?_) fun _ hpc => ?_
      · simp [transaction, h]
      · simp [exec, execSetRes, h, validated_illegal _ _ hpc]
  | cvtT => exact .converts _ rfl (fun _ _ => rfl) fun _ => rfl
  | cvtRh => exact .converts _ rfl (fun _ _ => rfl) fun _ => rfl
  | cvtC => exact .converts _ rfl (fun _ _ => rfl) fun _ => rfl

/-- Every entry of the table is a write, first or third, or a read, second; each at the one bus address. -/
theorem transaction_cases (h : transaction p tmp i k = some r) :
    ((k = 0 ∨ k = 2) ∧ ∃ bytes stop, r = busWriteReq bytes stop) ∨ (k = 1 ∧ ∃ n, r = busReadReq n) := by
  cases bodyShape p i with
  | read1 _ _ _ hrow | read2 _ _ _ hrow =>
    rcases readTransaction_some (hrow tmp k ▸ h) with ⟨hk, hr⟩ | ⟨hk, hr⟩
    · exact .inl ⟨.inl hk, _, _, hr⟩
    · exact .inr ⟨hk, _, hr⟩
  | write _ _ _ hrow =>
    obtain ⟨hk, hr⟩ := writeTransaction_some (hrow tmp k ▸ h)
    exact .inl ⟨.inl hk, _, _, hr⟩
  | rmw _ _ _ _ _ hrow =>
    rcases rmwTransaction_some (hrow tmp k ▸ h) with ⟨hk, hr⟩ | ⟨hk, hr⟩ | ⟨hk, bytes, hr⟩
    · exact .inl ⟨.inl hk, _, _, hr⟩
    · exact .inr ⟨hk, _, hr⟩
    · exact .inl ⟨.inr hk, _, _, hr⟩
  | rejects _ _ hrow | converts _ _ hrow => cases hrow tmp k ▸ h

theorem transaction_lt_three (h : transaction p tmp i k = some r) : k < 3 := by
  rcases transaction_cases h with ⟨hk, -⟩ | ⟨hk, -⟩ <;> omega

theorem transaction_addr (h : transaction p tmp i k = some r) : r.addr = Config.busAddr := by
  rcases transaction_cases h with ⟨-, _, _, rfl⟩ | ⟨-, _, rfl⟩ <;> rfl

/-! ### Going on from an answer -/

/-- A body stands at its start, or it holds an answer to an entry of `row`, the last one it asked for. -/
def ResumesIn (row : Byte → Nat → Option Request) (s : State) : Prop :=
  s.pc = 0 ∨ ∃ k r a, s.pc = k + 1 ∧ row s.tmp k = some r ∧ s.resp = some a ∧ answersRequest r a = true

/-- The outcome of a sequencer step from `s` is a next state, and what it asks for, if anything, is the entry of
`row` at the step index. -/
def GoesOn (row : Byte → Nat → Option Request) (s : State) (o : Host.Outcome State Fault Refusal) : Prop :=
  ∃ t, o = .next t ∧ ∀ r, t.pend = some r → row t.tmp s.pc = some r

variable {row : Byte → Nat → Option Request} {u : State}

theorem GoesOn.of_complete (code : Status) : GoesOn row s (.next (u.complete code)) :=
  ⟨_, rfl, fun _ h => nomatch h⟩

theorem GoesOn.of_issue (h : row u.tmp s.pc = some r) : GoesOn row s (.next (u.issue r)) := by
  refine ⟨_, rfl, fun q hq => ?_⟩
  obtain rfl : r = q := Option.some.inj hq
  exact h

/-- Only `WriteDone` answers a write (R213). -/
theorem answersRequest_write {a : BusAddr} {bytes : List Byte} {stop : Bool} {q : Response}
    (h : answersRequest (.write a bytes stop) q = true) : ∃ st, q = .writeDone st := by
  cases q with
  | writeDone st => exact ⟨st, rfl⟩
  | readDone st bs => cases h

/-- Only `ReadDone` answers a read, and a successful one has the bytes asked for (R214, R215). -/
theorem answersRequest_read {a : BusAddr} {n : Nat} {q : Response} (h : answersRequest (.read a n) q = true) :
    ∃ st bs, q = .readDone st bs ∧ (st = .success → bs.length = n) := by
  cases q with
  | writeDone st => cases h
  | readDone st bs => exact ⟨st, bs, rfl, fun hst => by simpa [answersRequest, hst] using h⟩

theorem afterWrite_goesOn {rest : Host.Outcome State Fault Refusal} {bytes : List Byte} {stop : Bool} {q : Response}
    (hresp : s.resp = some q) (hq : answersRequest (busWriteReq bytes stop) q = true) (h : GoesOn row s rest) :
    GoesOn row s (afterWrite s rest) := by
  obtain ⟨st, rfl⟩ := answersRequest_write hq
  by_cases hst : st = .success
  · rw [afterWrite_success rest (hst ▸ hresp)]
    exact h
  · rw [afterWrite_failure rest hresp hst]
    exact .of_complete _

theorem afterRead1_goesOn {rest : Byte → Host.Outcome State Fault Refusal} {q : Response}
    (hresp : s.resp = some q) (hq : answersRequest (busReadReq 1) q = true) (h : ∀ b, GoesOn row s (rest b)) :
    GoesOn row s (afterRead1 s rest) := by
  obtain ⟨st, bs, rfl, hlen⟩ := answersRequest_read hq
  by_cases hst : st = .success
  · obtain ⟨b, rfl⟩ := List.length_eq_one_iff.mp (hlen hst)
    rw [afterRead1_success rest (hst ▸ hresp)]
    exact h b
  · rw [afterRead1_failure rest hresp hst]
    exact .of_complete _

theorem afterRead2_goesOn {rest : Byte → Byte → Host.Outcome State Fault Refusal} {q : Response}
    (hresp : s.resp = some q) (hq : answersRequest (busReadReq 2) q = true) (h : ∀ b0 b1, GoesOn row s (rest b0 b1)) :
    GoesOn row s (afterRead2 s rest) := by
  obtain ⟨st, bs, rfl, hlen⟩ := answersRequest_read hq
  by_cases hst : st = .success
  · obtain ⟨b0, b1, rfl⟩ := List.length_eq_two.mp (hlen hst)
    rw [afterRead2_success rest (hst ▸ hresp)]
    exact h b0 b1
  · rw [afterRead2_failure rest hresp hst]
    exact .of_complete _

theorem read1Body_goesOn {cmd : List Byte} {results : Byte → State → State}
    (hrow : ∀ b k, row b k = readTransaction s.params cmd 1 k) (h : ResumesIn row s) :
    GoesOn row s (read1Body cmd results s) := by
  rcases h with hpc | ⟨k, r, q, hpc, hr, hresp, hq⟩
  · simp only [read1Body, hpc]
    exact .of_issue (by rw [hrow, hpc]; rfl)
  · rcases readTransaction_some (hrow _ k ▸ hr) with ⟨rfl, rfl⟩ | ⟨rfl, rfl⟩ <;> simp only [read1Body, hpc]
    · exact afterWrite_goesOn hresp hq (.of_issue (by rw [hrow, hpc]; rfl))
    · exact afterRead1_goesOn hresp hq fun _ => .of_complete _

theorem read2Body_goesOn {cmd : List Byte} {results : Byte → Byte → State → State}
    (hrow : ∀ b k, row b k = readTransaction s.params cmd 2 k) (h : ResumesIn row s) :
    GoesOn row s (read2Body cmd results s) := by
  rcases h with hpc | ⟨k, r, q, hpc, hr, hresp, hq⟩
  · simp only [read2Body, hpc]
    exact .of_issue (by rw [hrow, hpc]; rfl)
  · rcases readTransaction_some (hrow _ k ▸ hr) with ⟨rfl, rfl⟩ | ⟨rfl, rfl⟩ <;> simp only [read2Body, hpc]
    · exact afterWrite_goesOn hresp hq (.of_issue (by rw [hrow, hpc]; rfl))
    · exact afterRead2_goesOn hresp hq fun _ _ => .of_complete _

theorem writeBody_goesOn {bytes : List Byte} {d : Half} (hrow : ∀ b k, row b k = writeTransaction bytes k)
    (h : ResumesIn row s) : GoesOn row s (writeBody bytes d s) := by
  rcases h with hpc | ⟨k, r, q, hpc, hr, hresp, hq⟩
  · simp only [writeBody, hpc]
    exact .of_issue (by rw [hrow, hpc]; rfl)
  · obtain ⟨rfl, rfl⟩ := writeTransaction_some (hrow _ k ▸ hr)
    simp only [writeBody, hpc]
    exact afterWrite_goesOn hresp hq (.of_complete _)

theorem rmwBody_goesOn {rc wc : Byte} {refusal : Byte → Option Status} {new : Byte → Byte}
    (hrow : ∀ b k, row b k = rmwTransaction s.params rc (writeBack wc refusal new b) k) (h : ResumesIn row s) :
    GoesOn row s (rmwBody rc wc refusal new s) := by
  rcases h with hpc | ⟨k, r, q, hpc, hr, hresp, hq⟩
  · simp only [rmwBody, hpc]
    exact .of_issue (by rw [hrow, hpc]; rfl)
  · rcases rmwTransaction_some (hrow _ k ▸ hr) with ⟨rfl, rfl⟩ | ⟨rfl, rfl⟩ | ⟨rfl, _, rfl⟩ <;>
      simp only [rmwBody, hpc]
    · exact afterWrite_goesOn hresp hq (.of_issue (by rw [hrow, hpc]; rfl))
    · refine afterRead1_goesOn hresp hq fun b => ?_
      cases hb : refusal b with
      | some code => exact .of_complete _
      | none => exact .of_issue (by simp [hrow, hpc, writeBack, hb, rmwTransaction])
    · exact afterWrite_goesOn hresp hq (.of_complete _)

/-- A command that is resumed at a point of its row of the table goes on along that row. -/
theorem exec_goesOn (h : ResumesIn (fun b => transaction s.params b i) s) :
    GoesOn (fun b => transaction s.params b i) s (exec i s) := by
  cases bodyShape s.params i with
  | read1 _ _ _ hrow hbody => exact hbody s rfl ▸ read1Body_goesOn hrow h
  | read2 _ _ _ hrow hbody => exact hbody s rfl ▸ read2Body_goesOn hrow h
  | write _ _ _ hrow hbody => exact hbody s rfl ▸ writeBody_goesOn hrow h
  | rmw _ _ _ _ _ hrow hbody => exact hbody s rfl ▸ rmwBody_goesOn hrow h
  | rejects _ _ hrow hbody =>
    rcases h with hpc | ⟨k, r, -, -, hr, -, -⟩
    · exact hbody s hpc ▸ .of_complete _
    · cases (hrow s.tmp k).symm.trans hr
  | converts _ _ _ hbody => exact hbody s ▸ .of_complete _

theorem State.Resuming.resumesIn (h : s.Resuming) (hd : decodeCommand s.op s.arg = .ok i) :
    ResumesIn (fun b => transaction s.params b i) s := by
  rcases h with ⟨hpc, -⟩ | ⟨j, k, r, a, hj, hpc, hr, hresp, ha⟩
  · exact .inl hpc
  · obtain rfl : j = i := Except.ok.inj (hj.symm.trans hd)
    exact .inr ⟨k, r, a, hpc, hr, hresp, ha⟩

/-- One sequencer step of a running command from a state with the invariant (R132, R307): it goes on, and what
it asks for is the entry of the table at the step index. -/
theorem State.Inv.exec_next (h : s.Inv) (hi : s.Runs i) (hp : s.pend = none) :
    ∃ t, exec i s = .next t ∧ BodyStep s t ∧ ∀ r, t.pend = some r → transaction s.params t.tmp i s.pc = some r := by
  obtain ⟨hrun, hd⟩ := hi
  obtain ⟨t, ht, hr⟩ := exec_goesOn ((h.resuming hrun hp).resumesIn hd)
  exact ⟨t, ht, Machine.exec_next ht, hr⟩

/-- Settles O46: by `State.Inv.exec_next`, each kind of body step in turn. -/
theorem requestsFollowTheTransactionTable : Obligations.RequestsFollowTheTransactionTable := by
  intro s i hinv hi hp
  obtain ⟨t, ht, hstep, hr⟩ := hinv.exec_next hi hp
  refine ⟨t, ht, ?_⟩
  cases hstep with
  | asks x r => exact .inl ⟨hi.1, hinv.busy_run.mpr hi.1, rfl, rfl, (hr r rfl).symm, Option.some_ne_none r⟩
  | fails x code hc => exact .inr ⟨rfl, rfl, rfl, rfl⟩
  | succeeds d c o => exact .inr ⟨rfl, rfl, rfl, rfl⟩

end Sys2Proof.Machine
end

section
/-! The invariant (10_state.md R102, R120 to R124; 20_memory.md R210 to R215): it holds at reset, and every event
keeps it. -/

namespace Sys2Proof.Machine

variable {s t : State} {i : Instr} {r : Request}

/-! ### The invariant, operation by operation -/

/-- The invariant says nothing of OVR, of the host's operand registers and of the agents outside the block. -/
theorem State.Inv.of_hostSide (h : s.Inv) (ovr : Bool) (opnd : Half) (celin : Dword) (reads : List (Offset × Word))
    (prog : List HostStmt) (inputs : List Event) (draws : Nat) :
    State.Inv { s with
      ovr := ovr, opndRaw := opnd, celinReg := celin, reads := reads, prog := prog, inputs := inputs,
      draws := draws } where
  params_ok := h.params_ok
  busy_run := h.busy_run
  valid_done := h.valid_done
  lastOp_op := h.lastOp_op
  pc_le := h.pc_le
  idle_quiet := h.idle_quiet
  waiting := h.waiting
  resuming := h.resuming
  trace_ok := h.trace_ok

theorem inv_resetWith {p : Params} (hp : p.wellFormed = true) : (State.resetWith p).Inv where
  params_ok := hp
  busy_run := by simp [State.resetWith]
  valid_done := by simp [State.resetWith]
  lastOp_op := rfl
  pc_le := by simp [State.resetWith]
  idle_quiet _ := ⟨rfl, rfl⟩
  waiting := by simp [State.resetWith]
  resuming := by simp [State.resetWith]
  trace_ok := by simp [State.resetWith]

theorem State.Inv.blockReset (h : s.Inv) : s.blockReset.Inv :=
  { (inv_resetWith h.params_ok).of_hostSide false 0 0 s.reads s.prog s.inputs s.draws with trace_ok := h.trace_ok }

theorem State.Inv.accept (h : s.Inv) (v : Word) : (s.accept v).Inv where
  params_ok := h.params_ok
  busy_run := by simp
  valid_done := by simp
  lastOp_op := rfl
  pc_le := by simp
  idle_quiet := by simp
  waiting := by simp
  resuming _ _ := .inl ⟨rfl, rfl⟩
  trace_ok := h.trace_ok

/-- A completion (R131), with any results and any byte in tmp. -/
theorem State.Inv.complete (h : s.Inv) (tmp : Byte) (d : Half) (c : Byte) (o : OutFile) (code : Status) :
    (State.complete code { s with tmp := tmp, data16 := d, dclass := c, out := o }).Inv where
  params_ok := h.params_ok
  busy_run := by simp
  valid_done := by simp
  lastOp_op := h.lastOp_op
  pc_le := h.pc_le
  idle_quiet _ := ⟨rfl, rfl⟩
  waiting := by simp
  resuming := by simp
  trace_ok := h.trace_ok

/-- A request of the running command's own (R132), with any byte in tmp. -/
theorem State.Inv.issue (h : s.Inv) (hi : s.Runs i) {tmp : Byte}
    (hr : transaction s.params tmp i s.pc = some r) : (State.issue r { s with tmp := tmp }).Inv where
  params_ok := h.params_ok
  busy_run := h.busy_run
  valid_done := h.valid_done
  lastOp_op := h.lastOp_op
  pc_le := h.pc_le
  idle_quiet hidle := nomatch hi.1.symm.trans hidle
  waiting _ q hq := by
    obtain rfl : r = q := Option.some.inj hq
    exact ⟨rfl, i, hi.2, hr⟩
  resuming _ hp := nomatch hp
  trace_ok := h.trace_ok

/-- A request is outstanding only while a command runs (R123). -/
theorem State.Inv.run_of_pend (h : s.Inv) (hp : s.pend = some r) : s.phase = .run := by
  cases hph : s.phase with
  | run => rfl
  | idle => cases hp.symm.trans (h.idle_quiet hph).1

/-- A lawful answer to the outstanding request (R133): the command can go on from it. -/
theorem State.Inv.respond (h : s.Inv) (hp : s.pend = some r) {a : Answer} (ha : lawfulAnswer r a = true) :
    (s.respond r a).Inv := by
  have hrun := h.run_of_pend hp
  have hq := answersRequest_responseTo r a ha
  obtain ⟨-, i, hd, hr⟩ := h.waiting hrun r hp
  exact {
    params_ok := h.params_ok
    busy_run := h.busy_run
    valid_done := h.valid_done
    lastOp_op := h.lastOp_op
    pc_le := transaction_lt_three hr
    idle_quiet := fun hidle => nomatch hrun.symm.trans hidle
    waiting := fun _ _ hpend => nomatch hpend
    resuming := fun _ _ => .inr ⟨i, s.pc, r, responseTo r a, hd, rfl, hr, rfl, hq⟩
    trace_ok := fun e he => by
      rcases List.mem_append.mp he with he | he
      · exact h.trace_ok e he
      · obtain rfl := List.mem_singleton.mp he
        exact ⟨transaction_addr hr, hq⟩ }

/-! ### The invariant, event by event -/

theorem State.Inv.memWrite (h : s.Inv) (off : Offset) (v : Word) : (s.memWrite off v).Inv := by
  rcases memWrite_cases off v s with ⟨-, -, he⟩ | ⟨-, -, he⟩ | ⟨-, he⟩ | ⟨-, he⟩ | ⟨d, -, he⟩ | ⟨-, he⟩ <;> rw [he]
  · exact h.accept v
  · exact h.of_hostSide true _ _ _ _ _ _
  · exact h.of_hostSide (s.ovr && !v.getLsbD 2) _ _ _ _ _ _
  · exact h.of_hostSide _ _ _ _ _ _ _
  · exact h.of_hostSide _ _ d _ _ _ _
  · exact h

theorem State.Inv.hostProgramStep (h : s.Inv) : s.hostProgramStep.Inv := by
  rcases hostProgramStep_cases s with ⟨off, v, p, he⟩ | ⟨off, p, he⟩ | he <;> rw [he]
  · exact (h.memWrite off v).of_hostSide _ _ _ _ p _ _
  · exact h.of_hostSide _ _ _ _ p _ _
  · exact h

/-- The sequencer's event (R132): the latched command's body goes on, an unassigned opcode ends with
ILLEGAL_OPCODE, or the sequencer is not enabled. -/
theorem State.Inv.sequencerStep (h : s.Inv) : ∃ t, sequencerStep s = .next t ∧ t.Inv := by
  rcases sequencerStep_cases s with ⟨hrun, hp, ⟨i, hd, he⟩ | ⟨op, -, he⟩⟩ | ⟨-, he⟩
  · obtain ⟨t, ht, hbody, hr⟩ := h.exec_next ⟨hrun, hd⟩ hp
    refine ⟨t, he.trans ht, ?_⟩
    cases hbody with
    | asks x r => exact h.issue ⟨hrun, hd⟩ (hr r rfl)
    | fails x code hc => exact h.complete x _ _ _ code
    | succeeds d c o => exact h.complete _ d c o _
  · exact ⟨_, he, h.complete _ _ _ _ _⟩
  · exact ⟨s, he, h⟩

theorem State.Inv.transportStep (h : s.Inv) (a : Answer) : (s.transportStep a).Inv := by
  rcases transportStep_cases a s with ⟨r, hp, ha, he⟩ | he <;> rw [he]
  · exact h.respond hp ha
  · exact h

/-- From a state with the invariant every event ends in a next state, which has it too (R136). -/
theorem State.Inv.eventStep (h : s.Inv) (e : Event) : ∃ t, eventStep e s = .next t ∧ t.Inv := by
  cases e with
  | hostRead off => exact ⟨_, rfl, h.of_hostSide _ _ _ _ _ _ _⟩
  | hostWrite off v => exact ⟨_, rfl, h.memWrite off v⟩
  | hostProgram => exact ⟨_, rfl, h.hostProgramStep⟩
  | sequencer => exact h.sequencerStep
  | transport a => exact ⟨_, rfl, h.transportStep a⟩
  | lateAnswer a => exact ⟨_, rfl, h⟩
  | blockReset => exact ⟨_, rfl, h.blockReset⟩

theorem State.Inv.step (h : s.Inv) : ∃ t, step s = .next t ∧ t.Inv := by
  obtain ⟨l, n, he⟩ := nextEvent_cases s
  unfold Machine.step
  rw [he]
  exact (h.of_hostSide _ _ _ _ _ l n).eventStep _

/-! ### The obligations -/

/-- Settles O49: the one next state a step has is the one that `State.Inv.step` gives. -/
theorem everyStepKeepsTheInvariant : Obligations.EveryStepKeepsTheInvariant := by
  intro s t h hstep
  obtain ⟨u, hu, hinv⟩ := h.step
  obtain rfl : u = t := Host.Outcome.next.inj (hu.symm.trans hstep)
  exact hinv

/-- Settles O50: with the invariant every step has a next state. -/
theorem theBlockNeverBlocks : Obligations.TheBlockNeverBlocks := fun _ h => h.step.imp fun _ ht => ht.1

/-- Settles O48: the default parameters are well formed, and reset has nothing outstanding and nothing recorded. -/
theorem invariantHoldsAtReset : Obligations.InvariantHoldsAtReset :=
  ⟨inv_resetWith (by decide), fun _ => inv_resetWith⟩

end Sys2Proof.Machine
end

section
/-! Whole runs (10_state.md R121, R130 to R133, R136; 70_reset_and_hazards.md R718, R720): the sequencer and the
transport take turns until the command has ended. -/

namespace Sys2Proof.Machine

open Sys2Proof.Statements

variable {s t : State} {i : Instr} {r : Request} {a : Answer} {k : Nat} {l : List Event}

theorem run_succ (h : step s = .next t) (n : Nat) : Sys2Proof.core.run (n + 1) s = Sys2Proof.core.run n t := by
  have hcore : Sys2Proof.core.step s = .next t := h
  simp only [Host.Core.run, hcore]

/-! ### Every command ends -/

/-- The first two transactions of a command do not depend on the byte in tmp. -/
theorem transaction_tmp {p : Params} (x y : Byte) (hk : k ≤ 1) : transaction p x i k = transaction p y i k := by
  cases bodyShape p i with
  | read1 _ _ _ hrow | read2 _ _ _ hrow | write _ _ _ hrow | rejects _ _ hrow | converts _ _ hrow => rw [hrow, hrow]
  | rmw _ _ _ _ _ hrow =>
    rw [hrow, hrow]
    interval_cases k <;> rfl

/-- Every answer to a command's first or third request is lawful: it is a write (R214, R215). -/
theorem lawfulAnswer_of_transaction {p : Params} {x : Byte} (h : transaction p x i k = some r) (hk : k ≠ 1)
    (a : Answer) : lawfulAnswer r a = true := by
  rcases transaction_cases h with ⟨-, _, _, rfl⟩ | ⟨hk', -⟩
  · rfl
  · exact absurd hk' hk

/-- `t` runs the command that `s` has latched, and stands at step index `k`. -/
structure RunsAt (s : State) (k : Nat) (t : State) : Prop where
  phase : t.phase = .run
  pc : t.pc = k
  op : t.op = s.op
  arg : t.arg = s.arg
  params : t.params = s.params

/-- The events `l` are left in `t`, and the command that `s` has latched has ended or is ready for its next step at
index `k`. -/
structure Ready (s : State) (k : Nat) (l : List Event) (t : State) : Prop where
  inv : t.Inv
  inputs : t.inputs = l
  running : t.phase = .run → RunsAt s k t ∧ t.pend = none

/-- The events `l` are left in `t`, and the command that `s` has latched has ended or has asked for its transaction
`k`. -/
structure Asked (s : State) (k : Nat) (l : List Event) (t : State) : Prop where
  inv : t.Inv
  inputs : t.inputs = l
  running : t.phase = .run →
    RunsAt s k t ∧ ∃ i r, decodeCommand s.op s.arg = .ok i ∧ transaction s.params t.tmp i k = some r ∧ t.pend = some r

/-- A sequencer step from a state that is ready asks for the next transaction or ends the command. -/
theorem Ready.sequencer (h : Ready s k (.sequencer :: l) t) : ∃ u, step t = .next u ∧ Asked s k l u := by
  obtain ⟨u, hu, hinv⟩ := h.inv.step
  refine ⟨u, hu, ?_⟩
  rw [step_listed h.inputs] at hu
  rcases sequencerStep_cases { t with inputs := l } with ⟨hrun, hp, ⟨i, hd, he⟩ | ⟨op, -, he⟩⟩ | ⟨hidle, he⟩
  · have hinv' : State.Inv { t with inputs := l } := h.inv.of_hostSide _ _ _ _ _ l _
    obtain ⟨u', hu', hbody, hr⟩ := hinv'.exec_next ⟨hrun, hd⟩ hp
    obtain rfl : u' = u := Host.Outcome.next.inj ((he.trans hu').symm.trans hu)
    obtain ⟨hat, -⟩ := h.running hrun
    have hd' : decodeCommand s.op s.arg = .ok i := hat.op ▸ hat.arg ▸ hd
    cases hbody with
    | asks x r =>
      refine ⟨hinv, rfl, fun _ => ⟨⟨hrun, hat.pc, hat.op, hat.arg, hat.params⟩, i, r, hd', ?_, rfl⟩⟩
      have hx : transaction t.params x i t.pc = some r := hr r rfl
      rwa [hat.params, hat.pc] at hx
    | fails | succeeds => exact ⟨hinv, rfl, fun hrun' => nomatch hrun'⟩
  · obtain rfl : State.complete .illegalOpcode { t with inputs := l } = u :=
      Host.Outcome.next.inj (he.symm.trans hu)
    exact ⟨hinv, rfl, fun hrun => nomatch hrun⟩
  · obtain rfl : { t with inputs := l } = u := Host.Outcome.next.inj (he.symm.trans hu)
    refine ⟨hinv, rfl, fun hrun => ?_⟩
    have hrun' : t.phase = .run := hrun
    simp [hrun', (h.running hrun).2] at hidle

/-- A lawful answer to what was asked makes the command ready for the step after it. -/
theorem Asked.transport (h : Asked s k (.transport a :: l) t)
    (ha : ∀ i x r, decodeCommand s.op s.arg = .ok i → transaction s.params x i k = some r → lawfulAnswer r a = true) :
    ∃ u, step t = .next u ∧ Ready s (k + 1) l u := by
  obtain ⟨u, hu, hinv⟩ := h.inv.step
  refine ⟨u, hu, ?_⟩
  cases hph : t.phase with
  | idle =>
    rw [step_transport_disabled h.inputs (h.inv.idle_quiet hph).1] at hu
    cases hu
    exact ⟨hinv, rfl, fun hrun => nomatch hph.symm.trans hrun⟩
  | run =>
    obtain ⟨hat, i, r, hd, hr, hp⟩ := h.running hph
    rw [step_transport h.inputs hp (ha i _ r hd hr)] at hu
    cases hu
    exact ⟨hinv, rfl, fun _ => ⟨⟨hph, congrArg (· + 1) hat.pc, hat.op, hat.arg, hat.params⟩, rfl⟩⟩

/-- One round: the sequencer asks and the transport answers. -/
theorem Ready.round (h : Ready s k (.sequencer :: .transport a :: l) t)
    (ha : ∀ i x r, decodeCommand s.op s.arg = .ok i → transaction s.params x i k = some r → lawfulAnswer r a = true) :
    ∃ u, (∀ m, Sys2Proof.core.run (m + 2) t = Sys2Proof.core.run m u) ∧ Ready s (k + 1) l u := by
  obtain ⟨t', ht', hasked⟩ := h.sequencer
  obtain ⟨u, hu, hready⟩ := hasked.transport ha
  exact ⟨u, fun m => (run_succ ht' (m + 1)).trans (run_succ hu m), hready⟩

/-- After three transactions no command asks for a fourth. -/
theorem Asked.idle_of_three (h : Asked s 3 l t) : t.phase = .idle := by
  cases hph : t.phase with
  | idle => rfl
  | run =>
    obtain ⟨-, i, r, -, hr, -⟩ := h.running hph
    exact absurd (transaction_lt_three hr) (by decide)

theorem State.Inv.not_busy_of_idle (h : s.Inv) (hidle : s.phase = .idle) : s.busy = false := by
  have hbusy := h.busy_run
  rw [hidle] at hbusy
  simpa using hbusy

/-- Settles O51: three rounds, of which only the second one can have a read, and one more sequencer step. -/
theorem answeredCommandsEndWithinSevenSteps : Obligations.AnsweredCommandsEndWithinSevenSteps := by
  intro s a0 a1 a2 rest hinv hrun hpc hp hin hread
  have ready : Ready s 0 _ s := ⟨hinv, hin, fun _ => ⟨⟨hrun, hpc, rfl, rfl, rfl⟩, hp⟩⟩
  obtain ⟨s1, run1, ready1⟩ := ready.round fun i x r _ hr => lawfulAnswer_of_transaction hr (by decide) a0
  obtain ⟨s2, run2, ready2⟩ := ready1.round fun i x r hd hr => by
    rcases transaction_cases hr with ⟨hk, -⟩ | ⟨-, n, rfl⟩
    · omega
    · have hlen := hread i n hd ((transaction_tmp s.tmp x le_rfl).trans hr)
      exact lawfulAnswer_read.mpr (or_iff_not_imp_left.mpr fun hst => hlen (not_not.mp hst))
  obtain ⟨s3, run3, ready3⟩ := ready2.round fun i x r _ hr => lawfulAnswer_of_transaction hr (by decide) a2
  obtain ⟨t, ht, asked⟩ := ready3.sequencer
  exact ⟨t, by rw [run1, run2, run3, run_succ ht]; rfl, asked.inv, asked.inv.not_busy_of_idle asked.idle_of_three,
    asked.inputs⟩

/-! ### A successful read -/

/-- The steps of a command that writes `cmd`, reads `n` bytes and has them as DATA16 (R400 to R425, R455, R465). -/
structure ReadsBytes (p : Params) (i : Instr) (cmd : List Byte) (n : Nat) : Prop where
  row : ∀ x, transaction p x i 0 = some (busWriteReq cmd p.readStop)
  asksWrite : ∀ s : State, s.params = p → s.pc = 0 → exec i s = .next (s.issue (busWriteReq cmd p.readStop))
  asksRead : ∀ s : State, s.params = p → s.pc = 1 → s.resp = some (.writeDone .success) →
    exec i s = .next (s.issue (busReadReq n))
  finishes : ∀ (s : State) (bs : List Byte), s.params = p → s.pc = 2 → s.resp = some (.readDone .success bs) →
    bs.length = n →
      ∃ c o, exec i s = .next (State.complete .success { s with data16 := dataOf bs, dclass := c, out := o })

/-- Results that are known to write RESULT and OUT, with the DATA16 they write. -/
theorem WritesResults.finish_eq {f : State → State} (hf : WritesResults f) {d : Half} (hd : (f s).data16 = d) :
    ∃ c o, finish (f s) = .next (State.complete .success { s with data16 := d, dclass := c, out := o }) := by
  obtain ⟨d', c, o, hs⟩ := hf s
  rw [hs] at hd ⊢
  subst hd
  exact ⟨c, o, rfl⟩

theorem readsBytes_of_readLength (p : Params) {n : Nat} (h : readLength i = some n) : ∃ cmd, ReadsBytes p i cmd n := by
  cases bodyShape p i with
  | read1 cmd results hlen hrow hbody hwrites hdata =>
    obtain rfl : 1 = n := Option.some.inj (hlen.symm.trans h)
    refine ⟨cmd, fun x => hrow x 0, fun s hs hpc => ?_, fun s hs hpc hresp => ?_, fun s bs hs hpc hresp hbs => ?_⟩
    · rw [hbody s hs, read1Body, hpc, hs]
      rfl
    · rw [hbody s hs, read1Body, hpc]
      exact afterWrite_success _ hresp
    · obtain ⟨b, rfl⟩ := List.length_eq_one_iff.mp hbs
      have hexec : exec i s = finish (results b s) := by
        rw [hbody s hs, read1Body, hpc]
        exact afterRead1_success _ hresp
      rw [hexec]
      exact (hwrites b).finish_eq (hdata b s)
  | read2 cmd results hlen hrow hbody hwrites hdata =>
    obtain rfl : 2 = n := Option.some.inj (hlen.symm.trans h)
    refine ⟨cmd, fun x => hrow x 0, fun s hs hpc => ?_, fun s hs hpc hresp => ?_, fun s bs hs hpc hresp hbs => ?_⟩
    · rw [hbody s hs, read2Body, hpc, hs]
      rfl
    · rw [hbody s hs, read2Body, hpc]
      exact afterWrite_success _ hresp
    · obtain ⟨b0, b1, rfl⟩ := List.length_eq_two.mp hbs
      have hexec : exec i s = finish (results b0 b1 s) := by
        rw [hbody s hs, read2Body, hpc]
        exact afterRead2_success _ hresp
      rw [hexec]
      exact (hwrites b0 b1).finish_eq (hdata b0 b1 s)
  | write _ _ hlen | rmw _ _ _ _ hlen | rejects _ hlen | converts _ hlen => cases hlen.symm.trans h

/-- `s` after a request `r` of its command was made and answered with `a`, with the events `l` left. -/
def State.answered (r : Request) (a : Answer) (l : List Event) (s : State) : State :=
  State.respond r a { s with inputs := l }

/-- A running command asks for `r`, and the transport answers it. -/
theorem run_transaction (hin : s.inputs = .sequencer :: .transport a :: l) (hi : s.Runs i) (hp : s.pend = none)
    (hexec : exec i { s with inputs := .transport a :: l } =
      .next (State.issue r { s with inputs := .transport a :: l }))
    (ha : lawfulAnswer r a = true) (m : Nat) :
    Sys2Proof.core.run (m + 2) s = Sys2Proof.core.run m (s.answered r a l) := by
  have hask := (step_sequencer hin hi hp).trans hexec
  have hanswer := step_transport (s := State.issue r { s with inputs := .transport a :: l }) rfl rfl ha
  exact (run_succ hask (m + 1)).trans (run_succ hanswer m)

/-- The second half of a successful read: the bytes are asked for and arrive, and the command completes. -/
theorem ReadsBytes.run_from_read {cmd bs : List Byte} {n : Nat} (hcmd : ReadsBytes s.params i cmd n)
    (hin : s.inputs = .sequencer :: .transport ⟨.success, bs⟩ :: .sequencer :: l) (hi : s.Runs i) (hpc : s.pc = 1)
    (hp : s.pend = none) (hresp : s.resp = some (.writeDone .success)) (hbs : bs.length = n) :
    ∃ c o, Sys2Proof.core.run 3 s = .next (State.complete .success
      { s.answered (busReadReq n) ⟨.success, bs⟩ l with data16 := dataOf bs, dclass := c, out := o }) := by
  have hread := run_transaction hin hi hp (hcmd.asksRead _ rfl hpc hresp) (lawfulAnswer_read.mpr (.inr hbs)) 1
  have hlast := step_sequencer (s := s.answered (busReadReq n) ⟨.success, bs⟩ (.sequencer :: l)) rfl hi rfl
  obtain ⟨c, o, hdone⟩ := hcmd.finishes (s.answered (busReadReq n) ⟨.success, bs⟩ l) bs rfl
    (congrArg (· + 1) hpc) rfl hbs
  exact ⟨c, o, hread.trans (run_succ (hlast.trans hdone) 0)⟩

/-- Settles O52: the command's write, its read and its completion, each by the command's own step. -/
theorem successfulReadRun : Obligations.SuccessfulReadRun := by
  intro s i n junk bs rest hlen hi hpc hp hbs hin
  obtain ⟨cmd, hcmd⟩ := readsBytes_of_readLength s.params hlen
  have hwrite := run_transaction hin hi hp (hcmd.asksWrite _ rfl hpc) rfl 3
  obtain ⟨c, o, hread⟩ := ReadsBytes.run_from_read
    (s := s.answered (busWriteReq cmd s.params.readStop) ⟨.success, junk⟩ _) hcmd rfl hi (congrArg (· + 1) hpc) rfl
    rfl hbs
  exact ⟨_, cmd, hwrite.trans hread, hcmd.row s.tmp, List.append_assoc _ _ _, rfl, rfl, rfl, rfl, rfl⟩

end Sys2Proof.Machine
end

section
/-! What the host can rely on when it reads (20_memory.md R202, R208): reading changes nothing that a read returns,
and the results of a command that is over stand until the next accept. -/

namespace Sys2Proof.Machine

open Sys2Proof.Statements

variable (s : State)

/-- A host read returns registers of the block, none of the fields of the agents outside it. -/
theorem memRead_env (l : List Event) (n : Nat) (p : List HostStmt) (rd : List (Offset × Word)) (off : Offset) :
    (s.env l n p rd).memRead off = s.memRead off := rfl

/-- A host read that comes next only records the word it returns. -/
theorem step_hostRead {off : Offset} {rest : List Event} (h : s.inputs = .hostRead off :: rest) :
    step s = .next (s.env rest s.draws s.prog (s.reads ++ [(off, s.memRead off)])) :=
  step_listed h

/-- Settles O7: a read records its word, and what is recorded is in no register. -/
theorem hostReadsHaveNoSideEffect : Obligations.HostReadsHaveNoSideEffect := by
  intro s off rest hin
  have hstep := step_hostRead s hin
  refine ⟨hstep, fun t ht off' => ?_⟩
  cases hstep.symm.trans ht
  exact memRead_env s _ _ _ _ off'

/-- Settles O56: of the cases of a step, a body needs BUSY = 1 by the invariant, and a write to CMD of an idle block
is an accept; every other case keeps the fields. -/
theorem resultsStandUntilTheNextAccept : Obligations.ResultsStandUntilTheNextAccept := by
  intro s t hinv hb h hne hcmd
  obtain ⟨u, l, n, p, rd, hu, rfl⟩ := step_cases h
  generalize s.nextEvent.1 = e at hu hne hcmd
  cases hu with
  | reset => exact absurd rfl hne
  | body u hrun _ _ => cases hb.symm.trans (hinv.busy_run.mpr hrun)
  | accept _ off v hw ho _ =>
    rw [cmdWord_of_write hw, if_pos ho] at hcmd
    cases hcmd
  | answer | overrun | stat | operand | quiet => exact ⟨hb, rfl, rfl, rfl, rfl, rfl⟩

end Sys2Proof.Machine
end

section
/-! The command word (30_encoding.md R300 to R305, R310): its two fields as numbers, the opcode map as one equation,
and the words of the assembler's forms. -/

namespace Sys2Proof

open Machine

variable {v w : Word} {op arg b : Byte} {i : Instr}

/-! ### The fields of a command word (R300) -/

theorem opField_commandWord (op arg : Byte) : opField (commandWord op arg) = op :=
  (Laws.EncodingFields.commandWord_fields op arg).1

theorem argField_commandWord (op arg : Byte) : argField (commandWord op arg) = arg :=
  (Laws.EncodingFields.commandWord_fields op arg).2.1

theorem commandWord_toNat (op arg : Byte) : (commandWord op arg).toNat = arg.toNat * 256 + op.toNat := by
  simp only [commandWord, toNat_append_eq_add, BitVec.toNat_ofNat]
  omega

theorem encode_toNat (i : Instr) : (encode i).toNat = i.argByte.toNat * 256 + i.opcode.toNat :=
  commandWord_toNat _ _

theorem opField_toNat (v : Word) : (opField v).toNat = v.toNat % 256 := by
  rw [opField, BitVec.extractLsb'_toNat, Nat.shiftRight_zero]

theorem argField_toNat (v : Word) : (argField v).toNat = v.toNat / 256 % 256 := by
  rw [argField, BitVec.extractLsb'_toNat, Nat.shiftRight_eq_div_pow]

theorem low16_eq_fields (v : Word) : v.toNat % 65536 = (argField v).toNat * 256 + (opField v).toNat := by
  rw [opField_toNat, argField_toNat]
  omega

theorem opField_congr (h : v.toNat % 256 = w.toNat % 256) : opField v = opField w := by
  apply BitVec.eq_of_toNat_eq
  rw [opField_toNat, opField_toNat, h]

theorem argField_congr (h : v.toNat % 65536 = w.toNat % 65536) : argField v = argField w := by
  apply BitVec.eq_of_toNat_eq
  rw [argField_toNat, argField_toNat]
  omega

/-! ### The opcode map (R302, R303) -/

/-- The command with another ARG; a command that ignores ARG stays as it is (R304). -/
def Instr.withArg (arg : Byte) : Instr → Instr
  | .writeUser _ => .writeUser arg
  | .writeHtr _ => .writeHtr arg
  | .setHlvl _ => .setHlvl arg
  | .setRes _ => .setRes arg
  | i => i

@[simp] theorem Instr.opcode_withArg (arg : Byte) (i : Instr) : (i.withArg arg).opcode = i.opcode := by
  cases i <;> rfl

theorem Instr.argByte_withArg (hi : ∃ a, i = .writeUser a ∨ i = .writeHtr a ∨ i = .setHlvl a ∨ i = .setRes a) :
    (i.withArg arg).argByte = arg := by
  obtain ⟨a, rfl | rfl | rfl | rfl⟩ := hi <;> rfl

/-- R304: every command but the four that take an argument ignores ARG. -/
theorem Instr.withArg_of_ignored (h8 : i.opcode ≠ 0x08#8) (hA : i.opcode ≠ 0x0A#8) (hD : i.opcode ≠ 0x0D#8)
    (hE : i.opcode ≠ 0x0E#8) : i.withArg arg = i := by
  cases i with
  | writeUser => exact absurd rfl h8
  | writeHtr => exact absurd rfl hA
  | setHlvl => exact absurd rfl hD
  | setRes => exact absurd rfl hE
  | _ => rfl

/-- A command's opcode decodes to that command with the argument of the word. -/
theorem decodeCommand_opcode (i : Instr) (arg : Byte) : decodeCommand i.opcode arg = .ok (i.withArg arg) := by
  cases i <;> rfl

theorem decodeCommand_eq_ok_iff : decodeCommand op arg = .ok i ↔ i.opcode = op ∧ i.withArg arg = i := by
  constructor
  · intro h
    obtain ⟨rfl, -⟩ := decodeCommand_ok h
    exact ⟨rfl, Except.ok.inj ((decodeCommand_opcode i arg).symm.trans h)⟩
  · rintro ⟨rfl, hi⟩
    rw [decodeCommand_opcode, hi]

theorem decodeCommand_eq_error_iff :
    decodeCommand op arg = .error (.unassigned op) ↔ ∀ i : Instr, i.opcode ≠ op := by
  constructor
  · rintro h i rfl
    cases (decodeCommand_opcode i arg).symm.trans h
  · intro h
    cases hd : decodeCommand op arg with
    | ok i => exact absurd (decodeCommand_ok hd).1 (h i)
    | error e => rw [decodeCommand_error hd]

/-- The gaps of the opcode map. -/
theorem Instr.forall_opcode_ne_iff :
    (∀ i : Instr, i.opcode ≠ op) ↔ op = 0x00#8 ∨ op = 0x0F#8 ∨ 0x13 ≤ op.toNat := by
  constructor
  · intro h
    have hd : decodeCommand op 0#8 = .error (.unassigned op) := decodeCommand_eq_error_iff.mpr h
    unfold decodeCommand at hd
    split at hd
    case h_18 =>
      simp only [imp_false] at *
      bv_omega
    all_goals cases hd
  · rintro h i rfl
    cases i <;> simp [Instr.opcode] at h

theorem decodeCommand_unassigned_iff :
    decodeCommand op arg = .error (.unassigned op) ↔ op = 0x00#8 ∨ op = 0x0F#8 ∨ 0x13 ≤ op.toNat :=
  decodeCommand_eq_error_iff.trans Instr.forall_opcode_ne_iff

/-- The argument does not matter where the command ignores it, nor where there is no command. -/
theorem decodeCommand_arg_ignored (h8 : op ≠ 0x08#8) (hA : op ≠ 0x0A#8) (hD : op ≠ 0x0D#8) (hE : op ≠ 0x0E#8) :
    decodeCommand op arg = decodeCommand op b := by
  by_cases h : ∃ i : Instr, i.opcode = op
  · obtain ⟨i, rfl⟩ := h
    rw [decodeCommand_opcode, decodeCommand_opcode, Instr.withArg_of_ignored h8 hA hD hE,
      Instr.withArg_of_ignored h8 hA hD hE]
  · have hne := not_exists.mp h
    rw [decodeCommand_eq_error_iff.mpr hne, decodeCommand_eq_error_iff.mpr hne]

/-! ### The obligations -/

/-- Settles O11: the fields of the encoding are the command's opcode and argument. -/
theorem decodeOfEncodeIsTheCommand : Obligations.DecodeOfEncodeIsTheCommand := by
  intro i
  rw [decode, encode, opField_commandWord, argField_commandWord, decodeCommand_fields]

/-- Settles O12: the opcode is the word's OP field, and an operand is its ARG field. -/
theorem decodedWordsAgreeWithTheEncoding : Obligations.DecodedWordsAgreeWithTheEncoding := by
  intro v i h
  obtain ⟨hop, harg⟩ := decodeCommand_eq_ok_iff.mp h
  rw [encode_toNat, low16_eq_fields, hop]
  refine ⟨?_, fun hi => ?_⟩
  · rw [← opField_toNat]
    have := (opField v).isLt
    omega
  · rw [← harg, Instr.argByte_withArg hi]

/-- Settles O13: the decoder's two answers, and a command's opcode decodes with every argument. -/
theorem decodingIsTotalByTheOpcodeAlone : Obligations.DecodingIsTotalByTheOpcodeAlone := by
  refine ⟨fun v => ?_, fun v w hvw i hv => ⟨i.withArg (argField w), ?_, Instr.opcode_withArg _ i⟩⟩
  · cases h : decode v with
    | ok i => exact .inl ⟨i, rfl, (decodeCommand_ok h).1⟩
    | error e => exact .inr (congrArg Except.error (decodeCommand_error h))
  · have hop : i.opcode = opField w := (decodeCommand_ok hv).1.trans (opField_congr hvw)
    rw [decode, ← hop, decodeCommand_opcode]

/-- Settles O16: each form's word is `commandWord` of its opcode and argument. -/
theorem assemblerFormsGiveTheirWords : Obligations.AssemblerFormsGiveTheirWords := by
  refine ⟨encode_toNat, fun b => ⟨encode_toNat _, encode_toNat _, encode_toNat _⟩, fun rh t => ?_,
    fun i b => commandWord_toNat _ _, fun i hi => ?_, by decide⟩
  · cases rh <;> cases t <;> decide
  · have harg : i.argByte = 0#8 := by
      revert i
      decide
    rw [AsmCommand.word, encode_toNat, harg]
    exact Nat.zero_add _

/-- Settles O10: each word's answer, computed. -/
theorem opcodeMapWordsDecode : Obligations.OpcodeMapWordsDecode := by
  unfold Obligations.OpcodeMapWordsDecode
  decide

end Sys2Proof
end

section
/-! Unassigned opcodes and ignored bits (30_encoding.md R303, R304): what accept and the sequencer make of them. -/

namespace Sys2Proof.Machine

open Sys2Proof.Statements

variable {s : State} {v w : Word} {rest : List Event}

/-! ### Unassigned opcodes (R303) -/

/-- The opcodes below 0x13 have two gaps, and the 237 from 0x13 on are all unassigned. -/
theorem unassigned_count :
    ((List.range 256).filter fun n => n == 0x00 || n == 0x0F || 0x13 ≤ n).length = 239 := by
  have habove : ((List.range 237).map (19 + ·)).filter (fun n => n == 0x00 || n == 0x0F || 0x13 ≤ n) =
      (List.range 237).map (19 + ·) := List.filter_eq_self.mpr (by simp)
  rw [List.range_add (n := 19) (m := 237), List.filter_append, List.length_append, habove, List.length_map,
    List.length_range]
  rfl

/-- Every command word is accepted by an idle block, one with an unassigned opcode too (R130, R303). -/
theorem memWrite_cmd_idle (hb : s.busy = false) (v : Word) : s.memWrite 0x00#7 v = s.accept v := by
  rw [memWrite_cmd s v rfl, writeCmd_idle s v hb]

/-- A sequencer step of an unassigned opcode ends it, with no transaction and no result (R303, R604). -/
theorem sequencerStep_unassigned (hrun : s.phase = .run) (hp : s.pend = none)
    (hop : s.op = 0x00#8 ∨ s.op = 0x0F#8 ∨ 0x13 ≤ s.op.toNat) :
    sequencerStep s = .next (failed s .illegalOpcode) := by
  have hd : decodeCommand s.op s.arg = .error (.unassigned s.op) := decodeCommand_unassigned_iff.mpr hop
  calc sequencerStep s = raiseStatus .illegalOpcode s := by
        simp [sequencerStep, State.sequencerEnabled, runLatched, hrun, hp, hd]
    _ = .next (failed s .illegalOpcode) := rfl

theorem step_sequencer_unassigned (h : s.inputs = .sequencer :: rest) (hrun : s.phase = .run) (hp : s.pend = none)
    (hop : s.op = 0x00#8 ∨ s.op = 0x0F#8 ∨ 0x13 ≤ s.op.toNat) :
    step s = .next (failed { s with inputs := rest } .illegalOpcode) :=
  (step_listed h).trans (sequencerStep_unassigned (s := { s with inputs := rest }) hrun hp hop)

/-! ### Ignored bits (R304) -/

/-- A command word matters to accept through its two fields only. -/
theorem writeCmd_congr (hop : opField v = opField w) (harg : argField v = argField w) :
    s.writeCmd v = s.writeCmd w := by
  unfold State.writeCmd State.accept
  rw [hop, harg]

/-- No body looks at the latched ARG: a command carries its argument. -/
theorem unseen_arg (x : Byte) : Unseen fun s => { s with arg := x } where
  params _ := rfl
  pc _ := rfl
  tmp _ := rfl
  resp _ := rfl
  opnd _ := rfl
  celin _ := rfl
  issue _ _ := rfl
  complete _ _ := rfl
  setTmp _ _ := rfl
  writeResult _ _ _ := rfl
  writeTemps _ _ := rfl
  writeRh _ _ := rfl

/-! ### The obligations -/

/-- Refutes O14: 17 of the 256 opcodes are assigned, so 239 are unassigned, not R303's 240. Its other three clauses
hold: `decodeCommand_unassigned_iff`, `memWrite_cmd_idle` and `step_sequencer_unassigned`. -/
theorem not_unassignedOpcodesEndWithIllegalOpcode : ¬ Obligations.UnassignedOpcodesEndWithIllegalOpcode := by
  rintro ⟨-, hcount, -⟩
  rw [unassigned_count] at hcount
  exact absurd hcount (by decide)

/-- Settles O15: the fields are in the low half, only four opcodes look at ARG, and no body sees the latched ARG. -/
theorem ignoredBitsChangeNothing : Obligations.IgnoredBitsChangeNothing := by
  refine ⟨fun s v w h => ?_, fun v w h h8 hA hD hE => ?_, fun i s x => (unseen_arg x).exec s i⟩
  · have hop : opField v = opField w := opField_congr (by omega)
    have harg : argField v = argField w := argField_congr h
    rw [decode, decode, hop, harg, memWrite_cmd s v rfl, memWrite_cmd s w rfl, writeCmd_congr hop harg]
    exact ⟨rfl, rfl⟩
  · have ne {c : Byte} (hc : v.toNat % 256 ≠ c.toNat) : opField v ≠ c := by
      rintro rfl
      exact hc (opField_toNat v).symm
    rw [decode, decode, ← opField_congr h]
    exact decodeCommand_arg_ignored (ne h8) (ne hA) (ne hD) (ne hE)

end Sys2Proof.Machine
end

section
/-! Host programs (30_encoding.md R311): each statement is one host access, and WAIT is left when BUSY is 0. -/

namespace Sys2Proof.Machine

variable {s : State} {l : List Event} {rest : List HostStmt}

/-- A host write does not look at the program, nor change it. -/
theorem memWrite_with_prog (s : State) (p : List HostStmt) (off : Offset) (v : Word) :
    State.memWrite off v { s with prog := p } = { s.memWrite off v with prog := p } :=
  (memWrite_env s s.inputs s.draws p s.reads off v).trans
    (congrArg (fun t : State => { t with prog := p }) (memWrite_env s s.inputs s.draws s.prog s.reads off v)).symm

/-- BUSY is bit 0 of STAT (R102). -/
theorem statWord_getLsbD_zero (s : State) : s.statWord.getLsbD 0 = s.busy := by
  simp only [State.statWord, BitVec.getLsbD_append]
  simp

/-! ### One statement of a program -/

theorem hostProgramStep_nil (h : s.prog = []) : s.hostProgramStep = s := by
  rw [State.hostProgramStep, h]

theorem hostProgramStep_cmd {c : AsmCommand} (h : s.prog = .cmd c :: rest) :
    s.hostProgramStep = State.memWrite 0x00#7 c.word { s with prog := rest } := by
  rw [State.hostProgramStep, h, memWrite_with_prog]
  rfl

theorem hostProgramStep_wr {r : HostReg} {v : Word} (h : s.prog = .wr r v :: rest) :
    s.hostProgramStep = State.memWrite r.offset v { s with prog := rest } := by
  rw [State.hostProgramStep, h, memWrite_with_prog]

theorem hostProgramStep_rd {r : HostReg} (h : s.prog = .rd r :: rest) :
    s.hostProgramStep = State.hostRead r.offset { s with prog := rest } := by
  rw [State.hostProgramStep, h]
  rfl

theorem hostProgramStep_wait (h : s.prog = .wait :: rest) :
    s.hostProgramStep = State.hostRead 0x04#7 { s with prog := if s.busy then .wait :: rest else rest } := by
  rw [State.hostProgramStep, h, memRead_stat (off := HostReg.offset .stat) s rfl, statWord_getLsbD_zero]
  rfl

/-- The program's event comes next. -/
theorem step_hostProgram (h : s.inputs = .hostProgram :: l) :
    step s = .next (State.hostProgramStep { s with inputs := l }) :=
  step_listed h

/-! ### The obligations -/

/-- Settles O9: the statements in turn, each against the step of the access it names. -/
theorem hostProgramsAreHostAccesses : Obligations.HostProgramsAreHostAccesses := by
  refine ⟨fun s l rest hin => ?_, rfl, rfl, rfl, rfl, rfl, rfl, fun k => ?_⟩
  · rw [step_hostProgram hin]
    let t : State := { s with inputs := l }
    refine ⟨fun c h => congrArg _ (hostProgramStep_cmd (s := t) h),
      fun r v h => congrArg _ (hostProgramStep_wr (s := t) h),
      fun r h => congrArg _ (hostProgramStep_rd (s := t) h), fun h hb => ?_, fun h hb => ?_,
      fun h => congrArg _ (hostProgramStep_nil (s := t) h)⟩
    · rw [hostProgramStep_wait (s := t) h, show t.busy = false from hb]
      rfl
    · rw [hostProgramStep_wait (s := t) h, show t.busy = true from hb]
      rfl
  · fin_cases k <;> decide

end Sys2Proof.Machine
end

section
/-! The rows of the transaction table (30_encoding.md R306, R307), with the bytes that the read-modify-write commands
write back (42_read_modify_write.md R505 to R520). -/

namespace Sys2Proof.Machine

variable {p : Params} {tmp arg : Byte}

/-! ### The bytes written back and the arguments rejected -/

/-- Setting every bit of the mask. -/
theorem modifyBits_self (mask tmp : Byte) : modifyBits mask mask tmp = tmp ||| mask := by
  ext k hk
  simp only [modifyBits, BitVec.getElem_or, BitVec.getElem_and, BitVec.getElem_not]
  cases tmp[k] <;> cases mask[k] <;> rfl

theorem heaterOnByte_eq (tmp : Byte) : heaterOnByte tmp = tmp ||| 0x04#8 := modifyBits_self _ tmp

theorem heaterOffByte_eq (tmp : Byte) : heaterOffByte tmp = tmp &&& 0xFB#8 := BitVec.or_zero

theorem levelIllegal_eq_false (h : arg.toNat ≤ 15) : levelIllegal arg = false :=
  decide_eq_false (by omega)

theorem levelIllegal_eq_true (h : 16 ≤ arg.toNat) : levelIllegal arg = true :=
  decide_eq_true h

theorem levelByte_eq (h : arg.toNat ≤ 15) : levelByte arg tmp = (tmp &&& 0xF0#8) ||| arg := by
  have harg : arg &&& 0x0F#8 = arg := by
    apply BitVec.eq_of_toNat_eq
    rw [BitVec.toNat_and]
    exact (Nat.and_two_pow_sub_one_eq_mod _ 4).trans (Nat.mod_eq_of_lt (by omega))
  rw [levelByte, harg]
  rfl

theorem resolutionIllegal_iff : resolutionIllegal arg = true ↔ 4 ≤ arg.toNat := by
  rw [resolutionIllegal, bne_iff_ne, ne_eq, ← BitVec.toNat_inj, BitVec.extractLsb'_toNat, Nat.shiftRight_eq_div_pow]
  have := arg.isLt
  simp only [BitVec.toNat_ofNat]
  omega

theorem resolutionIllegal_eq_false (h : arg.toNat ≤ 3) : resolutionIllegal arg = false :=
  Bool.eq_false_iff.mpr fun hill => absurd (resolutionIllegal_iff.mp hill) (by omega)

/-! ### The rows with a byte or an argument to test -/

theorem transaction_heaterOn :
    transaction p tmp .heaterOn =
      rmwTransaction p 0xE7#8 (if tmp.getLsbD 6 then none else some [0xE6#8, tmp ||| 0x04#8]) := by
  rw [← heaterOnByte_eq]
  rfl

theorem transaction_heaterOff :
    transaction p tmp .heaterOff = rmwTransaction p 0xE7#8 (some [0xE6#8, tmp &&& 0xFB#8]) := by
  rw [← heaterOffByte_eq]
  rfl

theorem transaction_setHlvl_legal (h : arg.toNat ≤ 15) :
    transaction p tmp (.setHlvl arg) = rmwTransaction p 0x11#8 (some [0x51#8, (tmp &&& 0xF0#8) ||| arg]) := by
  funext k
  rw [transaction, levelIllegal_eq_false h, levelByte_eq h]
  rfl

theorem transaction_setHlvl_illegal (h : 16 ≤ arg.toNat) : transaction p tmp (.setHlvl arg) = fun _ => none := by
  funext k
  rw [transaction, levelIllegal_eq_true h]
  rfl

theorem transaction_setRes_legal (h : arg.toNat ≤ 3) :
    transaction p tmp (.setRes arg) =
      rmwTransaction p (resReadCommand p) (some [resWriteCommand p, resolutionByte p arg tmp]) := by
  funext k
  rw [transaction, resolutionIllegal_eq_false h]
  rfl

theorem transaction_setRes_illegal (h : 4 ≤ arg.toNat) : transaction p tmp (.setRes arg) = fun _ => none := by
  funext k
  rw [transaction, resolutionIllegal_iff.mpr h]
  rfl

theorem resCommands_htr (h : p.resTarget = .htr) : resReadCommand p = 0x11#8 ∧ resWriteCommand p = 0x51#8 := by
  rw [resReadCommand, resWriteCommand, h]
  exact ⟨rfl, rfl⟩

theorem resCommands_user (h : p.resTarget = .user) : resReadCommand p = 0xE7#8 ∧ resWriteCommand p = 0xE6#8 := by
  rw [resReadCommand, resWriteCommand, h]
  exact ⟨rfl, rfl⟩

/-! ### The obligation -/

/-- Settles O45: the rows without a test are the table's own; the others by the lemmas above. -/
theorem transactionTableIsTheRules : Obligations.TransactionTableIsTheRules := by
  intro p tmp arg w r row
  refine ⟨rfl, rfl, rfl, rfl, rfl, rfl, rfl, rfl, rfl, rfl, ?heaterOn, ?heaterOff, fun h => ?level,
    fun h => ?badLevel, fun h ht => ?htr, fun h ht => ?user, fun h => ?badResolution, rfl, rfl, rfl⟩ <;> simp only [row]
  case heaterOn =>
    rw [transaction_heaterOn]
    cases tmp.getLsbD 6 <;> rfl
  case heaterOff =>
    rw [transaction_heaterOff]
    rfl
  case level =>
    rw [transaction_setHlvl_legal h]
    rfl
  case badLevel =>
    rw [transaction_setHlvl_illegal h]
    rfl
  case htr =>
    obtain ⟨hread, hwrite⟩ := resCommands_htr ht
    rw [transaction_setRes_legal h, hread, hwrite]
    rfl
  case user =>
    obtain ⟨hread, hwrite⟩ := resCommands_user ht
    rw [transaction_setRes_legal h, hread, hwrite]
    rfl
  case badResolution =>
    rw [transaction_setRes_illegal h]
    rfl

end Sys2Proof.Machine
end

section
/-! The two-transaction reads (40_measure_and_identity.md R400 to R425, with the shared bodies of 10_state.md R132):
a command that writes a command to the chip, reads one or two bytes, and finishes with results of them. -/

namespace Sys2Proof.Machine

open Sys2Proof.Statements

variable {s : State} {i : Instr} {cmd : List Byte} {n pc : Nat}

/-! ### The shared bodies, point by point -/

section
variable (results : Byte → State → State)

theorem read1Body_start (h : s.pc = 0) : read1Body cmd results s = busWrite cmd s.params.readStop s := by
  simp only [read1Body, h]

theorem read1Body_written (h : s.pc = 1) : read1Body cmd results s = afterWrite s (busRead 1 s) := by
  simp only [read1Body, h]

theorem read1Body_read (h : s.pc = 2) :
    read1Body cmd results s = afterRead1 s fun b => finish (results b s) := by
  simp only [read1Body, h]

end

section
variable (results : Byte → Byte → State → State)

theorem read2Body_start (h : s.pc = 0) : read2Body cmd results s = busWrite cmd s.params.readStop s := by
  simp only [read2Body, h]

theorem read2Body_written (h : s.pc = 1) : read2Body cmd results s = afterWrite s (busRead 2 s) := by
  simp only [read2Body, h]

theorem read2Body_read (h : s.pc = 2) :
    read2Body cmd results s = afterRead2 s fun b0 b1 => finish (results b0 b1 s) := by
  simp only [read2Body, h]

end

/-! ### Asking and the checks (R17, R132, R610) -/

/-- Completion with another code than SUCCESS is an end with an error. -/
theorem complete_error {code : Status} (h : code ≠ .success) : s.complete code = failed s code := by
  simp [State.complete, State.completionFlags, failed, h]

theorem complete_transportStatus {st : BusStatus} (h : st ≠ .success) :
    s.complete (transportStatus st) = failed s (transportStatus st) :=
  complete_error (mt transportStatus_eq_success.mp h)

theorem thenReads_of_afterWrite (h : s.pc = 1 → exec i s = afterWrite s (busRead n s)) : thenReads i s n :=
  fun hpc hresp => (h hpc).trans (afterWrite_success _ hresp)

theorem writeCheck_of_afterWrite {rest : State → Out}
    (h : ∀ s : State, s.pc = pc → exec i s = afterWrite s (rest s)) : writeCheck i pc := by
  intro s st hpc hresp hst
  rw [h s hpc, afterWrite_failure _ hresp hst, complete_transportStatus hst]

theorem readCheck_of_afterRead1 {rest : State → Byte → Out}
    (h : ∀ s : State, s.pc = pc → exec i s = afterRead1 s (rest s)) : readCheck i pc := by
  intro s st bs hpc hresp hst
  rw [h s hpc, afterRead1_failure _ hresp hst, complete_transportStatus hst]

theorem readCheck_of_afterRead2 {rest : State → Byte → Byte → Out}
    (h : ∀ s : State, s.pc = pc → exec i s = afterRead2 s (rest s)) : readCheck i pc := by
  intro s st bs hpc hresp hst
  rw [h s hpc, afterRead2_failure _ hresp hst, complete_transportStatus hst]

/-! ### Whole reads -/

/-- The raw code of two bytes as a number (20_memory.md R217). -/
theorem bigEndian_toNat (b0 b1 : Byte) : (bigEndian b0 b1).toNat = b0.toNat * 256 + b1.toNat :=
  toNat_append_eq_add b0 b1

/-- A command whose body reads one byte and writes it and its class to RESULT (R420, R425, R455, R465). -/
theorem oneByteRead_of_body {cls : Params → Byte → Byte}
    (hbody : ∀ s, exec i s = read1Body cmd (fun b t => t.writeResult (zext16 b) (cls t.params b)) s) :
    oneByteRead i cmd cls := by
  have start (s : State) (h : s.pc = 0) := (hbody s).trans (read1Body_start _ h)
  have written (s : State) (h : s.pc = 1) := (hbody s).trans (read1Body_written _ h)
  have read (s : State) (h : s.pc = 2) := (hbody s).trans (read1Body_read _ h)
  exact ⟨fun s => ⟨start s, thenReads_of_afterWrite (written s),
    fun b hpc hresp => (read s hpc).trans (afterRead1_success _ hresp)⟩,
    writeCheck_of_afterWrite written, readCheck_of_afterRead1 read⟩

/-- A command whose body reads two bytes, writes them to RESULT, and does `more` with them as a number (R400, R405,
R410). -/
theorem twoByteRead_of_body {more : State → Nat → State}
    (hbody : ∀ s, exec i s =
      read2Body cmd (fun b0 b1 t => more (t.writeResult (bigEndian b0 b1) 0#8) (bigEndian b0 b1).toNat) s) :
    twoByteRead i cmd more := by
  have start (s : State) (h : s.pc = 0) := (hbody s).trans (read2Body_start _ h)
  have written (s : State) (h : s.pc = 1) := (hbody s).trans (read2Body_written _ h)
  have read (s : State) (h : s.pc = 2) := (hbody s).trans (read2Body_read _ h)
  refine ⟨fun s => ⟨start s, thenReads_of_afterWrite (written s), fun b0 b1 hpc hresp => ?_⟩,
    writeCheck_of_afterWrite written, readCheck_of_afterRead2 read⟩
  rw [← bigEndian_toNat]
  exact (read s hpc).trans (afterRead2_success _ hresp)

/-! ### The obligations -/

/-- Settles O22: the opcode, the body with OUT_RH as its further result, and the corner values, computed. -/
theorem measRhFollowsItsRule : Obligations.MeasRhFollowsItsRule :=
  ⟨decodeCommand_opcode .measRh, twoByteRead_of_body fun _ => rfl, by decide, by decide, by decide⟩

/-- Settles O23: the opcode, the body with the temperatures as its further results, and the corner values, computed. -/
theorem measTFollowsItsRule : Obligations.MeasTFollowsItsRule :=
  ⟨decodeCommand_opcode .measT, twoByteRead_of_body fun _ => rfl, by decide, by decide, by decide, by decide⟩

/-- Settles O24: the opcode, and the body with no result but RESULT. -/
theorem readSerialFollowsItsRule : Obligations.ReadSerialFollowsItsRule :=
  ⟨decodeCommand_opcode .readSerial, twoByteRead_of_body fun _ => rfl⟩

/-- Settles O25: the opcodes, and the bodies with the class of the table. -/
theorem identityReadsFollowTheirRules : Obligations.IdentityReadsFollowTheirRules :=
  ⟨decodeCommand_opcode .readDevid, oneByteRead_of_body fun _ => rfl,
    decodeCommand_opcode .readFw, oneByteRead_of_body fun _ => rfl⟩

end Sys2Proof.Machine
end

section
/-! Soft reset and the register primitives (41_reset_and_primitives.md R450 to R470): the commands of one write that
always sends a stop, and the one-byte reads of a register. -/

namespace Sys2Proof.Machine

open Sys2Proof.Statements

variable {s : State} {i : Instr} {bytes : List Byte} {d : Half}

/-! ### The shared body of one write, point by point -/

theorem writeBody_start (h : s.pc = 0) : writeBody bytes d s = busWrite bytes true s := by
  simp only [writeBody, h]

theorem writeBody_written (h : s.pc = 1) :
    writeBody bytes d s = afterWrite s (finish (s.writeResult d 0#8)) := by
  simp only [writeBody, h]

/-- A command whose body is one write and finishes with RESULT = (d, 0) (R450, R460, R470). -/
theorem oneWrite_of_body (hbody : ∀ s, exec i s = writeBody bytes d s) : oneWrite i bytes d := by
  have start (s : State) (h : s.pc = 0) := (hbody s).trans (writeBody_start h)
  have written (s : State) (h : s.pc = 1) := (hbody s).trans (writeBody_written h)
  exact ⟨fun s => ⟨start s, fun hpc hresp => (written s hpc).trans (afterWrite_success _ hresp)⟩,
    writeCheck_of_afterWrite written⟩

/-! ### The obligations -/

/-- Settles O27: the opcode, and the body of one write with RESULT 0. -/
theorem softResetFollowsItsRule : Obligations.SoftResetFollowsItsRule :=
  ⟨decodeCommand_opcode .softReset, oneWrite_of_body fun _ => rfl⟩

/-- Settles O28: the opcodes, and the one-byte bodies with class 0. -/
theorem registerReadsFollowTheirRules : Obligations.RegisterReadsFollowTheirRules :=
  ⟨decodeCommand_opcode .readUser, oneByteRead_of_body fun _ => rfl,
    decodeCommand_opcode .readHtr, oneByteRead_of_body fun _ => rfl⟩

/-- Settles O29: the opcodes with their argument, and the bodies of one write with RESULT the byte, whatever it is. -/
theorem registerWritesFollowTheirRules : Obligations.RegisterWritesFollowTheirRules := fun arg =>
  ⟨decodeCommand_opcode (.writeUser arg) arg, oneWrite_of_body fun _ => rfl,
    decodeCommand_opcode (.writeHtr arg) arg, oneWrite_of_body fun _ => rfl⟩

end Sys2Proof.Machine
end

section
/-! The read-modify-write commands (42_read_modify_write.md R500 to R520): one body for the four of them, each with its
pair of chip commands, its refusal and the byte it writes back. -/

namespace Sys2Proof.Machine

open Sys2Proof.Statements

variable {s : State} {i : Instr} {p : Params} {b rc wc : Byte} {refusal : Byte → Option Status} {new : Byte → Byte}
  {l : List Event}

/-! ### The shared body, point by point -/

theorem rmwBody_start (h : s.pc = 0) : rmwBody rc wc refusal new s = busWrite [rc] s.params.readStop s := by
  simp only [rmwBody, h]

theorem rmwBody_written (h : s.pc = 1) : rmwBody rc wc refusal new s = afterWrite s (busRead 1 s) := by
  simp only [rmwBody, h]

theorem rmwBody_read_refused {code : Status} (h : s.pc = 2) (hresp : s.resp = some (.readDone .success [b]))
    (hb : refusal b = some code) : rmwBody rc wc refusal new s = raiseStatus code { s with tmp := b } := by
  simp only [rmwBody, h, afterRead1_success _ hresp, hb]

theorem rmwBody_read_accepted (h : s.pc = 2) (hresp : s.resp = some (.readDone .success [b])) (hb : refusal b = none) :
    rmwBody rc wc refusal new s = busWrite [wc, new b] true { s with tmp := b } := by
  simp only [rmwBody, h, afterRead1_success _ hresp, hb]

theorem rmwBody_read_failure {st : BusStatus} {bs : List Byte} (h : s.pc = 2)
    (hresp : s.resp = some (.readDone st bs)) (hst : st ≠ .success) :
    rmwBody rc wc refusal new s = .next (failed s (transportStatus st)) := by
  simp only [rmwBody, h, afterRead1_failure _ hresp hst, complete_transportStatus hst]

theorem rmwBody_rewritten (h : s.pc = 3) :
    rmwBody rc wc refusal new s = afterWrite s (finish (s.writeResult (zext16 (new s.tmp)) 0#8)) := by
  simp only [rmwBody, h]

/-! ### The four commands -/

/-- The command `rc` of the read half (R505 to R520). -/
def rmwRead (p : Params) : Instr → Byte
  | .setHlvl _ => cmdReadHeater
  | .setRes _ => resReadCommand p
  | _ => cmdReadUser

/-- The command `wc` of the write half (R505 to R520). -/
def rmwWrite (p : Params) : Instr → Byte
  | .setHlvl _ => cmdWriteHeater
  | .setRes _ => resWriteCommand p
  | _ => cmdWriteUser

/-- The status with which the command ends, without a write, on the byte read (R505): only HEATER_ON tests it. -/
def rmwRefusal : Instr → Byte → Option Status
  | .heaterOn, b => if voltageLow b then some .voltageTooLow else none
  | _, _ => none

/-- The byte written back for the byte `b` read (R501); a command of another kind has none, and keeps `b`. -/
def rmwNew (p : Params) : Instr → Byte → Byte
  | .heaterOn, b => heaterOnByte b
  | .heaterOff, b => heaterOffByte b
  | .setHlvl arg, b => levelByte arg b
  | .setRes arg, b => resolutionByte p arg b
  | _, b => b

theorem legalRmw_cases (h : legalRmw i = true) :
    i = .heaterOn ∨ i = .heaterOff ∨ (∃ arg, i = .setHlvl arg ∧ arg.toNat ≤ 15) ∨
      ∃ arg, i = .setRes arg ∧ arg.toNat ≤ 3 := by
  cases i with
  | heaterOn => exact .inl rfl
  | heaterOff => exact .inr (.inl rfl)
  | setHlvl arg => exact .inr (.inr (.inl ⟨arg, rfl, of_decide_eq_true h⟩))
  | setRes arg => exact .inr (.inr (.inr ⟨arg, rfl, of_decide_eq_true h⟩))
  | _ => cases h

/-- With a legal argument each of the four is `rmwBody`: validation lets it through. -/
theorem exec_rmw (h : legalRmw i = true) (s : State) :
    exec i s = rmwBody (rmwRead s.params i) (rmwWrite s.params i) (rmwRefusal i) (rmwNew s.params i) s := by
  rcases legalRmw_cases h with rfl | rfl | ⟨arg, rfl, harg⟩ | ⟨arg, rfl, harg⟩
  · rfl
  · rfl
  · rw [exec, execSetHlvl, levelIllegal_eq_false harg, validated_legal]
    rfl
  · rw [exec, execSetRes, resolutionIllegal_eq_false harg, validated_legal]
    rfl

theorem rmwRefusal_heaterOn (h : b.getLsbD 6 = true) : rmwRefusal .heaterOn b = some .voltageTooLow :=
  if_pos h

/-- A byte is refused by HEATER_ON only, when its bit 6 is set. -/
theorem rmwRefusal_eq_none (h : i = .heaterOn → b.getLsbD 6 = false) : rmwRefusal i b = none := by
  cases i with
  | heaterOn => exact if_neg (ne_true_of_eq_false (h rfl))
  | _ => rfl

/-- The row of the transaction table of a byte that is not refused (R307). -/
theorem transaction_rmw (h : legalRmw i = true) (hb : i = .heaterOn → b.getLsbD 6 = false) :
    transaction p b i = rmwTransaction p (rmwRead p i) (some [rmwWrite p i, rmwNew p i b]) := by
  rcases legalRmw_cases h with rfl | rfl | ⟨arg, rfl, harg⟩ | ⟨arg, rfl, harg⟩
  · rw [transaction_heaterOn, hb rfl, ← heaterOnByte_eq]
    rfl
  · rw [transaction_heaterOff, ← heaterOffByte_eq]
    rfl
  · rw [transaction_setHlvl_legal harg, ← levelByte_eq harg]
    rfl
  · exact transaction_setRes_legal harg

/-! ### What the four commands do -/

theorem exec_rmw_accepted (h : legalRmw i = true) (hb : rmwRefusal i b = none) (hpc : s.pc = 2)
    (hresp : s.resp = some (.readDone .success [b])) :
    exec i s = .next (State.issue (busWriteReq [rmwWrite s.params i, rmwNew s.params i b] true) { s with tmp := b }) :=
  (exec_rmw h s).trans (rmwBody_read_accepted hpc hresp hb)

theorem exec_rmw_rewritten (h : legalRmw i = true) (hpc : s.pc = 3) (hresp : s.resp = some (.writeDone .success)) :
    exec i s = finish (s.writeResult (zext16 (rmwNew s.params i s.tmp)) 0#8) :=
  ((exec_rmw h s).trans (rmwBody_rewritten hpc)).trans (afterWrite_success _ hresp)

theorem startsWith_rmw (h : legalRmw i = true) (s : State) : startsWith i s [rmwRead s.params i] s.params.readStop :=
  fun hpc => (exec_rmw h s).trans (rmwBody_start hpc)

theorem thenReads_rmw (h : legalRmw i = true) (s : State) : thenReads i s 1 :=
  thenReads_of_afterWrite fun hpc => (exec_rmw h s).trans (rmwBody_written hpc)

theorem writesBack_rmw (h : legalRmw i = true) (hb : rmwRefusal i b = none) (s : State) :
    writesBack i s b (rmwWrite s.params i) (rmwNew s.params i b) :=
  ⟨exec_rmw_accepted h hb, fun hpc hresp htmp => htmp ▸ exec_rmw_rewritten h hpc hresp⟩

theorem rmwChecks_rmw (h : legalRmw i = true) : rmwChecks i :=
  ⟨writeCheck_of_afterWrite fun s hpc => (exec_rmw h s).trans (rmwBody_written hpc),
    fun s _ _ hpc hresp hst => (exec_rmw h s).trans (rmwBody_read_failure hpc hresp hst),
    writeCheck_of_afterWrite fun s hpc => (exec_rmw h s).trans (rmwBody_rewritten hpc)⟩

/-! ### M and V of SET_RES, written out (R520) -/

section
variable {arg : Byte}

theorem resReadCommand_eq (p : Params) : resReadCommand p = if p.resTarget = .htr then 0x11#8 else 0xE7#8 := by
  cases h : p.resTarget with
  | htr => exact (resCommands_htr h).1
  | user => exact (resCommands_user h).1

theorem resWriteCommand_eq (p : Params) : resWriteCommand p = if p.resTarget = .htr then 0x51#8 else 0xE6#8 := by
  cases h : p.resTarget with
  | htr => exact (resCommands_htr h).2
  | user => exact (resCommands_user h).2

theorem and_one_eq_ofNat (x : Byte) : x &&& 1#8 = BitVec.ofNat 8 (x.toNat % 2) := by
  apply BitVec.eq_of_toNat_eq
  rw [BitVec.toNat_and, BitVec.toNat_ofNat, BitVec.toNat_ofNat]
  exact (Nat.and_one_is_mod _).trans (Nat.mod_eq_of_lt (by omega)).symm

theorem resolutionValue_eq (p : Params) (h : arg.toNat ≤ 3) :
    resolutionValue p arg = (BitVec.ofNat 8 (arg.toNat / 2) <<< p.resHiBit.val) |||
      (BitVec.ofNat 8 (arg.toNat % 2) <<< p.resLoBit.val) := by
  have hhigh : (arg >>> 1).toNat % 2 = arg.toNat / 2 := by
    rw [BitVec.toNat_ushiftRight, Nat.shiftRight_eq_div_pow]
    omega
  rw [resolutionValue, and_one_eq_ofNat, and_one_eq_ofNat, hhigh]

end

/-! ### The byte written back, bit by bit (R501) -/

section
variable {k : Nat} {arg : Byte}

theorem modifyBits_getLsbD (mask value tmp : Byte) (hk : k < 8) :
    (modifyBits mask value tmp).getLsbD k = (tmp.getLsbD k && !mask.getLsbD k || value.getLsbD k) := by
  simp [modifyBits, hk]

/-- The lowest bit of a byte, moved to position `n`. -/
theorem lowestBit_shiftLeft_getLsbD (x : Byte) (n : Nat) (hk : k < 8) :
    ((x &&& 1#8) <<< n).getLsbD k = (decide (k = n) && x.getLsbD 0) := by
  rcases Nat.lt_trichotomy k n with hlt | rfl | hgt
  · simp [hlt, hlt.ne]
  · simp [hk]
  · have hne : k - n ≠ 0 := by omega
    simp [hgt.ne', hne]

theorem oneBit_shiftLeft_getLsbD (n : Nat) (hk : k < 8) : ((1#8 : Byte) <<< n).getLsbD k = decide (k = n) :=
  (lowestBit_shiftLeft_getLsbD 1#8 n hk).trans (Bool.and_true _)

theorem heaterOnByte_getLsbD (b : Byte) (hk : k < 8) :
    (heaterOnByte b).getLsbD k = if k = 2 then true else b.getLsbD k := by
  have hmask : (0x04#8 : Byte).getLsbD k = decide (k = 2) := oneBit_shiftLeft_getLsbD 2 hk
  rw [heaterOnByte, modifyBits_getLsbD _ _ _ hk, hmask]
  by_cases h : k = 2 <;> simp [h]

theorem heaterOffByte_getLsbD (b : Byte) (hk : k < 8) :
    (heaterOffByte b).getLsbD k = if k = 2 then false else b.getLsbD k := by
  have hmask : (0x04#8 : Byte).getLsbD k = decide (k = 2) := oneBit_shiftLeft_getLsbD 2 hk
  rw [heaterOffByte, modifyBits_getLsbD _ _ _ hk, hmask]
  by_cases h : k = 2 <;> simp [h]

theorem levelByte_getLsbD (b : Byte) (hk : k < 8) :
    (levelByte arg b).getLsbD k = if k < 4 then arg.getLsbD k else b.getLsbD k := by
  have hmask : (0x0F#8 : Byte).getLsbD k = decide (k < 4) := by interval_cases k <;> rfl
  rw [levelByte, modifyBits_getLsbD _ _ _ hk, BitVec.getLsbD_and, hmask]
  by_cases h : k < 4 <;> simp [h]

/-- R10 keeps the two positions apart, so that neither value bit covers the other. -/
theorem resolutionByte_getLsbD (b : Byte) (hp : p.resHiBit.val ≠ p.resLoBit.val) (hk : k < 8) :
    (resolutionByte p arg b).getLsbD k =
      if k = p.resHiBit.val then arg.getLsbD 1 else if k = p.resLoBit.val then arg.getLsbD 0 else b.getLsbD k := by
  rw [resolutionByte, modifyBits_getLsbD _ _ _ hk, resolutionMask, resolutionValue, BitVec.getLsbD_or,
    BitVec.getLsbD_or, oneBit_shiftLeft_getLsbD _ hk, oneBit_shiftLeft_getLsbD _ hk,
    lowestBit_shiftLeft_getLsbD _ _ hk, lowestBit_shiftLeft_getLsbD _ _ hk, BitVec.getLsbD_ushiftRight]
  by_cases hhi : k = p.resHiBit.val
  · simp [hhi, hp]
  · by_cases hlo : k = p.resLoBit.val <;> simp [hhi, hlo, hp.symm]

/-- The byte written back has the target bits' values, and the byte read elsewhere. -/
theorem rmwNew_getLsbD (h : legalRmw i = true) (hp : p.wellFormed = true) (b : Byte) (hk : k < 8) :
    (rmwNew p i b).getLsbD k = (targetBit p i k).getD (b.getLsbD k) := by
  rcases legalRmw_cases h with rfl | rfl | ⟨arg, rfl, -⟩ | ⟨arg, rfl, -⟩
  · rw [rmwNew, heaterOnByte_getLsbD b hk, targetBit]
    split <;> rfl
  · rw [rmwNew, heaterOffByte_getLsbD b hk, targetBit]
    split <;> rfl
  · rw [rmwNew, levelByte_getLsbD b hk, targetBit]
    split <;> rfl
  · have hdistinct : p.resHiBit.val ≠ p.resLoBit.val := fun heq => by
      obtain ⟨hbits, -⟩ := wellFormed_iff.mp hp
      exact bne_iff_ne.mp hbits (Fin.ext heq)
    rw [rmwNew, resolutionByte_getLsbD b hdistinct hk, targetBit]
    split
    · rfl
    · split <;> rfl

end

/-! ### A successful run (R500, R503) -/

@[simp] theorem State.answered_params (r : Request) (a : Answer) : (s.answered r a l).params = s.params := rfl

@[simp] theorem State.answered_out (r : Request) (a : Answer) : (s.answered r a l).out = s.out := rfl

@[simp] theorem State.answered_trace (r : Request) (a : Answer) :
    (s.answered r a l).trace = s.trace ++ [(r, responseTo r a)] := rfl

/-- A running command asks for `r` and keeps the byte `b` in tmp, and the transport answers it. -/
theorem run_transaction_setTmp {r : Request} {a : Answer} (hin : s.inputs = .sequencer :: .transport a :: l)
    (hi : s.Runs i) (hp : s.pend = none)
    (hexec : exec i { s with inputs := .transport a :: l } =
      .next (State.issue r { s with inputs := .transport a :: l, tmp := b }))
    (ha : lawfulAnswer r a = true) (m : Nat) :
    Sys2Proof.core.run (m + 2) s = Sys2Proof.core.run m (State.answered r a l { s with tmp := b }) := by
  have hask := (step_sequencer hin hi hp).trans hexec
  have hanswer := step_transport (s := State.issue r { s with inputs := .transport a :: l, tmp := b }) rfl rfl ha
  exact (run_succ hask (m + 1)).trans (run_succ hanswer m)

/-- The last step of a run, by the sequencer. -/
theorem run_lastStep {t : State} (hin : s.inputs = .sequencer :: l) (hi : s.Runs i) (hp : s.pend = none)
    (hexec : exec i { s with inputs := l } = .next t) : Sys2Proof.core.run 1 s = .next t :=
  run_succ ((step_sequencer hin hi hp).trans hexec) 0

/-- The first half of a successful run: the command is written and the byte `b` is read. -/
theorem run_readHalf {j : List Byte} (h : legalRmw i = true)
    (hin : s.inputs = .sequencer :: .transport ⟨.success, j⟩ :: .sequencer :: .transport ⟨.success, [b]⟩ :: l)
    (hi : s.Runs i) (hpc : s.pc = 0) (hp : s.pend = none) (m : Nat) :
    Sys2Proof.core.run (m + 4) s = Sys2Proof.core.run m (State.answered (busReadReq 1) ⟨.success, [b]⟩ l
      (s.answered (busWriteReq [rmwRead s.params i] s.params.readStop) ⟨.success, j⟩ l)) := by
  have hwrite := run_transaction hin hi hp (startsWith_rmw h _ hpc) rfl (m + 2)
  have hread := run_transaction (l := l) (a := ⟨.success, [b]⟩)
    (s := s.answered (busWriteReq [rmwRead s.params i] s.params.readStop) ⟨.success, j⟩
      (.sequencer :: .transport ⟨.success, [b]⟩ :: l))
    rfl hi rfl (thenReads_rmw h _ (congrArg (· + 1) hpc) rfl) rfl m
  exact hwrite.trans hread

/-- The second half of a successful run: the byte read is written back, and the command completes with it. -/
theorem run_writeBack {j : List Byte} (h : legalRmw i = true) (hb : rmwRefusal i b = none)
    (hin : s.inputs = .sequencer :: .transport ⟨.success, j⟩ :: .sequencer :: l) (hi : s.Runs i) (hpc : s.pc = 2)
    (hp : s.pend = none) (hresp : s.resp = some (.readDone .success [b])) :
    Sys2Proof.core.run 3 s = .next (State.complete .success (State.writeResult (zext16 (rmwNew s.params i b)) 0#8
      (State.answered (busWriteReq [rmwWrite s.params i, rmwNew s.params i b] true) ⟨.success, j⟩ l
        { s with tmp := b }))) := by
  have hwrite := run_transaction_setTmp hin hi hp (exec_rmw_accepted h hb hpc hresp) rfl 1
  exact hwrite.trans (run_lastStep rfl hi rfl (exec_rmw_rewritten h (congrArg (· + 1) hpc) rfl))

/-! ### The obligations -/

/-- Settles O30: the opcode, the body, and R505's two cases by the byte's bit 6. -/
theorem heaterOnFollowsItsRule : Obligations.HeaterOnFollowsItsRule := by
  have hi : legalRmw .heaterOn = true := rfl
  refine ⟨decodeCommand_opcode .heaterOn, rmwChecks_rmw hi, fun s b =>
    ⟨startsWith_rmw hi s, thenReads_rmw hi s, fun hb hpc hresp => ?refused, fun hb => ?accepted⟩⟩
  case refused =>
    rw [exec_rmw hi, rmwBody_read_refused hpc hresp (rmwRefusal_heaterOn hb), raiseStatus_eq,
      complete_error (by decide)]
  case accepted =>
    rw [← heaterOnByte_eq]
    exact writesBack_rmw hi (rmwRefusal_eq_none fun _ => hb) s

/-- Settles O31: the opcode, and the body, which refuses no byte. -/
theorem heaterOffFollowsItsRule : Obligations.HeaterOffFollowsItsRule := by
  have hi : legalRmw .heaterOff = true := rfl
  refine ⟨decodeCommand_opcode .heaterOff, rmwChecks_rmw hi, fun s b =>
    ⟨startsWith_rmw hi s, thenReads_rmw hi s, ?_⟩⟩
  rw [← heaterOffByte_eq]
  exact writesBack_rmw hi rfl s

/-- Settles O32: the opcode with its level, the rejected levels, and the body of the legal ones. -/
theorem setHlvlFollowsItsRule : Obligations.SetHlvlFollowsItsRule := by
  refine fun arg => ⟨decodeCommand_opcode (.setHlvl arg) arg, fun h s hpc => ?illegal, fun h => ?legal⟩
  case illegal =>
    rw [exec, execSetHlvl, levelIllegal_eq_true h, validated_illegal _ _ hpc, raiseStatus_eq,
      complete_error (by decide)]
  case legal =>
    have hi : legalRmw (.setHlvl arg) = true := decide_eq_true h
    refine ⟨rmwChecks_rmw hi, fun s b => ⟨startsWith_rmw hi s, thenReads_rmw hi s, ?_⟩⟩
    rw [← levelByte_eq h]
    exact writesBack_rmw hi rfl s

/-- Settles O33: the opcode with its argument, the rejected arguments, and the body of the legal ones with the rule's
commands, M and V. -/
theorem setResFollowsItsRule : Obligations.SetResFollowsItsRule := by
  refine fun arg => ⟨decodeCommand_opcode (.setRes arg) arg, fun h s hpc => ?illegal, fun h => ?legal⟩
  case illegal =>
    rw [exec, execSetRes, resolutionIllegal_iff.mpr h, validated_illegal _ _ hpc, raiseStatus_eq,
      complete_error (by decide)]
  case legal =>
    have hi : legalRmw (.setRes arg) = true := decide_eq_true h
    refine ⟨rmwChecks_rmw hi, fun s b => ?_⟩
    dsimp only
    rw [← resReadCommand_eq, ← resWriteCommand_eq, ← resolutionValue_eq s.params h]
    exact ⟨startsWith_rmw hi s, thenReads_rmw hi s, writesBack_rmw hi rfl s⟩

/-- Settles O34: the step looks at the byte just read and not at tmp or RESULT, and `rmwNew` is known bit by bit. -/
theorem rmwPreservesEveryOtherBit : Obligations.RmwPreservesEveryOtherBit := by
  intro i s b hi hp hpc hresp hb
  exact ⟨State.issue (busWriteReq [rmwWrite s.params i, rmwNew s.params i b] true) { s with tmp := b }, _, _,
    fun x c d => exec_rmw_accepted (s := { s with tmp := x, data16 := d, dclass := c }) hi (rmwRefusal_eq_none hb) hpc
      hresp,
    rfl, rfl, fun k hk => rmwNew_getLsbD hi hp b hk⟩

/-- Settles O53: the command write, the read of the byte, and `run_writeBack`. -/
theorem successfulRmwRun : Obligations.SuccessfulRmwRun := by
  intro s i b j0 j2 rest hi hb hruns hpc hp hin
  have hread := run_readHalf hi hin hruns hpc hp 3
  refine ⟨_, rmwRead s.params i, rmwWrite s.params i, rmwNew s.params i b,
    hread.trans (run_writeBack hi (rmwRefusal_eq_none hb) rfl hruns (congrArg (· + 2) hpc) rfl rfl), ?_⟩
  rw [transaction_rmw hi hb]
  exact ⟨rfl, rfl, rfl, by simp [responseTo, busWriteReq, busReadReq, Config.busAddr], rfl, rfl, by simp,
    rfl, rfl, rfl⟩

end Sys2Proof.Machine
end

section
/-! The Unit Conversion Layer (43_conversion.md R550 to R572; 00_scope.md R14): its functions against the source's
formulas over the rationals, the range in which no scale wraps, and the three conversion commands. -/

namespace Sys2Proof.Machine

open Sys2Proof.Statements

variable {n d k v c : Int} {t h : Nat}

/-! ### Reading a number as 64 bits (R14) -/

theorem s64_eq_toInt_ofInt (v : Int) : s64 v = (BitVec.ofInt 64 v).toInt := by
  rw [BitVec.toInt_ofInt]
  rfl

theorem s64_toNat (d : Dword) : s64 d.toNat = d.toInt := by
  rw [s64_eq_toInt_ofInt, BitVec.ofInt_natCast, BitVec.ofNat_toNat, BitVec.setWidth_eq]

theorem s64_eq_self_iff : s64 v = v ↔ -2 ^ 63 ≤ v ∧ v ≤ 2 ^ 63 - 1 := by
  unfold s64 trunc64
  omega

/-! ### Rounding (R15) against a bound and against the quotient -/

theorem rnd_le_iff (hd : 0 < d) : rnd n d ≤ k ↔ 2 * n + d < (k + 1) * (2 * d) :=
  Int.lt_add_one_iff.symm.trans (Int.ediv_lt_iff_lt_mul (by omega))

theorem le_rnd_iff (hd : 0 < d) : k ≤ rnd n d ↔ k * (2 * d) ≤ 2 * n + d :=
  Int.le_ediv_iff_mul_le (by omega)

theorem abs_rnd_sub_div_le_half (hd : 0 < d) : |(rnd n d : ℚ) - n / d| ≤ 1 / 2 :=
  abs_le.mpr ⟨by linarith [div_sub_rnd_lt_half (n := n) hd], rnd_sub_div_le_half hd⟩

/-- A rounding error of one half in the last place of a Q31.32 number (R556). -/
theorem abs_div_two_pow_sub_le {x y : ℚ} (hxy : |x - 2 ^ 32 * y| ≤ 1 / 2) : |x / 2 ^ 32 - y| ≤ 1 / 2 ^ 33 := by
  obtain ⟨hlo, hhi⟩ := abs_le.mp hxy
  exact abs_le.mpr ⟨by linarith, by linarith⟩

/-! ### Celsius of a raw code (R550) -/

/-- 2^32 times the exact Celsius value is the quotient that R550 rounds. -/
theorem two_pow_mul_celsiusFormula (t : Nat) :
    2 ^ 32 * celsiusFormula t = ((4393 * 65536 * (t : Int) - 4685 * 2 ^ 30 : Int) : ℚ) / (25 : Int) := by
  unfold celsiusFormula
  push_cast
  ring

theorem celsiusFx_eq_floor (t : Nat) : celsiusFx t = ⌊2 ^ 32 * celsiusFormula t + 1 / 2⌋ := by
  rw [two_pow_mul_celsiusFormula]
  exact rnd_eq_floor_add_half (by decide)

/-- The divisor 25 is odd, so the quotient is not halfway between two integers. -/
theorem celsiusFormula_ne_tie (t : Nat) (k : Int) : 2 ^ 32 * celsiusFormula t ≠ (k : ℚ) + 1 / 2 := by
  rw [two_pow_mul_celsiusFormula]
  intro htie
  have hint : 2 * (4393 * 65536 * (t : Int) - 4685 * 2 ^ 30) = 25 * (2 * k + 1) := by
    have : (2 : ℚ) * ((4393 * 65536 * (t : Int) - 4685 * 2 ^ 30 : Int) : ℚ) = 25 * (2 * k + 1) := by
      push_cast at htie ⊢
      linarith
    exact_mod_cast this
  omega

theorem abs_celsiusFx_sub_le (t : Nat) : |(celsiusFx t : ℚ) / 2 ^ 32 - celsiusFormula t| ≤ 1 / 2 ^ 33 := by
  apply abs_div_two_pow_sub_le
  rw [two_pow_mul_celsiusFormula]
  exact abs_rnd_sub_div_le_half (by decide)

/-- R554: the extreme rows of table V-C1. -/
theorem celsiusFx_bounds (ht : t < 65536) : -201219217818 ≤ celsiusFx t ∧ celsiusFx t ≤ 553480919450 := by
  rw [celsiusFx, le_rnd_iff (by decide), rnd_le_iff (by decide)]
  omega

/-! ### Relative humidity of a raw code (R551) -/

theorem rhFx_eq (h : Nat) : rhFx h = 8192000 * h - 25769803776 := rfl

theorem rhFx_cast (h : Nat) : (rhFx h : ℚ) = 2 ^ 32 * (125 * h / 65536 - 6) := by
  rw [rhFx_eq]
  push_cast
  ring

theorem rhFx_bounds (hh : h < 65536) : rhFx 0 ≤ rhFx h ∧ rhFx h ≤ rhFx 65535 := by
  simp only [rhFx_eq]
  omega

/-! ### The scales of a Celsius value (R552) -/

theorem Scale.ad_pos (sc : Scale) : 0 < sc.ad := by cases sc <;> decide

theorem Scale.bd_pos (sc : Scale) : 0 < sc.bd := by cases sc <;> decide

/-- Every source formula is the line of the table's factor and offset. -/
theorem sourceFormula_eq (sc : Scale) (x : ℚ) :
    sourceFormula sc x = (sc.an : ℚ) / sc.ad * x + (sc.bn : ℚ) / sc.bd := by
  cases sc <;> simp only [sourceFormula, Scale.an, Scale.ad, Scale.bn, Scale.bd] <;> push_cast <;> ring

/-- 2^32 times the source's value is the quotient that R552 rounds. -/
theorem two_pow_mul_sourceFormula (sc : Scale) (c : Int) :
    2 ^ 32 * sourceFormula sc ((c : ℚ) / 2 ^ 32) =
      ((sc.an * sc.bd * c + sc.bn * sc.ad * 2 ^ 32 : Int) : ℚ) / (sc.ad * sc.bd : Int) := by
  have had : (sc.ad : ℚ) ≠ 0 := mod_cast sc.ad_pos.ne'
  have hbd : (sc.bd : ℚ) ≠ 0 := mod_cast sc.bd_pos.ne'
  rw [sourceFormula_eq]
  push_cast
  field_simp
  ring

theorem scaleExact_eq_floor (sc : Scale) (c : Int) :
    scaleExact sc c = ⌊2 ^ 32 * sourceFormula sc ((c : ℚ) / 2 ^ 32) + 1 / 2⌋ := by
  rw [two_pow_mul_sourceFormula]
  exact rnd_eq_floor_add_half (mul_pos sc.ad_pos sc.bd_pos)

theorem abs_scaleExact_sub_le (sc : Scale) (c : Int) :
    |(scaleExact sc c : ℚ) / 2 ^ 32 - sourceFormula sc ((c : ℚ) / 2 ^ 32)| ≤ 1 / 2 ^ 33 := by
  apply abs_div_two_pow_sub_le
  rw [two_pow_mul_sourceFormula]
  exact abs_rnd_sub_div_le_half (mul_pos sc.ad_pos sc.bd_pos)

/-- An error in the Celsius value reaches a scale times the scale's factor. -/
theorem abs_sourceFormula_sub (sc : Scale) (x y : ℚ) :
    |sourceFormula sc x - sourceFormula sc y| = |(sc.an : ℚ) / sc.ad| * |x - y| := by
  rw [sourceFormula_eq, sourceFormula_eq, ← abs_mul]
  exact congrArg abs (by ring)

theorem Scale.abs_factor_le (sc : Scale) : |(sc.an : ℚ) / sc.ad| ≤ 9 / 5 := by
  rw [abs_le]
  cases sc <;> simp only [Scale.an, Scale.ad] <;> norm_num

/-- R556: the rounding of the scale, and that of the Celsius value times the scale's factor. -/
theorem abs_scaleExact_celsiusFx_sub_le (sc : Scale) (t : Nat) :
    |(scaleExact sc (celsiusFx t) : ℚ) / 2 ^ 32 - sourceFormula sc (celsiusFormula t)|
      ≤ (|(sc.an : ℚ) / sc.ad| + 1) / 2 ^ 33 := by
  set x : ℚ := (celsiusFx t : ℚ) / 2 ^ 32
  calc |(scaleExact sc (celsiusFx t) : ℚ) / 2 ^ 32 - sourceFormula sc (celsiusFormula t)|
      ≤ |(scaleExact sc (celsiusFx t) : ℚ) / 2 ^ 32 - sourceFormula sc x| +
          |sourceFormula sc x - sourceFormula sc (celsiusFormula t)| := abs_sub_le _ _ _
    _ ≤ 1 / 2 ^ 33 + |(sc.an : ℚ) / sc.ad| * (1 / 2 ^ 33) := by
      rw [abs_sourceFormula_sub]
      gcongr
      · exact abs_scaleExact_sub_le sc (celsiusFx t)
      · exact abs_celsiusFx_sub_le t
    _ = (|(sc.an : ℚ) / sc.ad| + 1) / 2 ^ 33 := by ring

/-! ### Which scales fit 64 bits (R554, R572) -/

theorem scaleFx_eq_scaleExact_iff (sc : Scale) (c : Int) :
    scaleFx sc c = scaleExact sc c ↔ -2 ^ 63 ≤ scaleExact sc c ∧ scaleExact sc c ≤ 2 ^ 63 - 1 :=
  s64_eq_self_iff

/-- Bounds on a scale are linear bounds on the Celsius value. -/
theorem scaleExact_bounds_iff (sc : Scale) {lo hi : Int} :
    lo ≤ scaleExact sc c ∧ scaleExact sc c ≤ hi ↔
      lo * (2 * (sc.ad * sc.bd)) ≤ 2 * (sc.an * sc.bd * c + sc.bn * sc.ad * 2 ^ 32) + sc.ad * sc.bd ∧
      2 * (sc.an * sc.bd * c + sc.bn * sc.ad * 2 ^ 32) + sc.ad * sc.bd < (hi + 1) * (2 * (sc.ad * sc.bd)) :=
  have hd := mul_pos sc.ad_pos sc.bd_pos
  and_congr (le_rnd_iff hd) (rnd_le_iff hd)

/-- The greatest range of Celsius values, symmetric about 0, in which no scale wraps (R572). -/
theorem scaleFx_eq_scaleExact (sc : Scale) (hc : |c| ≤ 5124094402860114101) : scaleFx sc c = scaleExact sc c := by
  obtain ⟨hlo, hhi⟩ := abs_le.mp hc
  rw [scaleFx_eq_scaleExact_iff, scaleExact_bounds_iff]
  cases sc <;> simp only [Scale.an, Scale.ad, Scale.bn, Scale.bd] <;> omega

/-- One above that range Rankine rounds up to 2^63. -/
theorem scaleFx_ran_wraps : scaleFx .ran 5124094402860114102 ≠ scaleExact .ran 5124094402860114102 := by
  rw [Ne, scaleFx_eq_scaleExact_iff]
  decide

/-- R554: the lowest and the highest scale in the extreme rows of table V-C1. -/
theorem scaleExact_bounds (sc : Scale) (hc : -201219217818 ≤ c ∧ c ≤ 553480919450) :
    -224755638600 ≤ scaleExact sc c ∧ scaleExact sc c ≤ 3107972225434 := by
  rw [scaleExact_bounds_iff]
  cases sc <;> simp only [Scale.an, Scale.ad, Scale.bn, Scale.bd] <;> omega

theorem s64_celsiusFx (ht : t < 65536) : s64 (celsiusFx t) = celsiusFx t := by
  have hc := celsiusFx_bounds ht
  exact s64_eq_self_iff.mpr (by omega)

theorem scaleFx_celsiusFx (sc : Scale) (ht : t < 65536) :
    scaleFx sc (celsiusFx t) = scaleExact sc (celsiusFx t) := by
  have hc := celsiusFx_bounds ht
  exact scaleFx_eq_scaleExact sc (abs_le.mpr (by omega))

/-! ### The three commands (R560, R565, R570) -/

theorem exec_cvtT (s : State) : exec .cvtT s = .next (succeeded (withTemps s (celsiusFx s.opnd.toNat))) := rfl

theorem exec_cvtRh (s : State) : exec .cvtRh s = .next (succeeded (withRh s s.opnd.toNat)) := rfl

theorem exec_cvtC (s : State) : exec .cvtC s = .next (succeeded (withTemps s s.celin.toInt)) := by
  rw [exec, execCvtC, s64_toNat]
  rfl

/-! ### The obligations -/

/-- Settles O35: the opcodes, the three steps, the corner values, computed, and the bound inside the exact one. -/
theorem conversionsFollowTheirRules : Obligations.ConversionsFollowTheirRules := by
  refine ⟨decodeCommand_opcode .cvtT, exec_cvtT, decodeCommand_opcode .cvtRh, exec_cvtRh,
    decodeCommand_opcode .cvtC, exec_cvtC, by decide, by decide, by decide, by decide, by decide, fun h => ?sign,
    by decide, by decide, by decide, by decide, fun sc c hc => ?noWrap⟩
  case sign =>
    rw [rhFx_eq]
    omega
  case noWrap =>
    exact scaleFx_eq_scaleExact sc (hc.trans (by decide))

/-- Settles O37: rounding is the floor one half above, and the divisor is odd. -/
theorem celsiusIsTheFormulaRoundedOnce : Obligations.CelsiusIsTheFormulaRoundedOnce := fun t _ =>
  ⟨celsiusFx_eq_floor t, celsiusFormula_ne_tie t⟩

/-- Settles O38: the exact value, its order in the raw code, and the values at both ends. -/
theorem humidityIsExactAndUnclamped : Obligations.HumidityIsExactAndUnclamped := by
  intro h hh
  obtain ⟨hlo, hhi⟩ := rhFx_bounds hh
  refine ⟨rhFx_cast h, rhFx_eq h, hlo, hhi, ?_⟩
  rw [rhFx_cast, rhFx_cast]
  norm_num

/-- Settles O39: the scale before it is read as 64 bits is the floor, and `s64` is the signed reading. -/
theorem scalesAreTheSourceFormulasRoundedOnce : Obligations.ScalesAreTheSourceFormulasRoundedOnce := by
  intro sc c
  rw [← scaleExact_eq_floor]
  exact s64_eq_toInt_ofInt _

/-- Settles O40: the error bounds, with no wrap on the scales, and the greatest factor, 9/5. -/
theorem conversionAccuracy : Obligations.ConversionAccuracy := by
  refine fun t ht => ⟨abs_celsiusFx_sub_le t, fun sc => ⟨?_, ?_⟩, by norm_num, ?_⟩
  · rw [scaleFx_celsiusFx sc ht]
    exact abs_scaleExact_celsiusFx_sub_le sc t
  · linarith [sc.abs_factor_le]
  · rw [rhFx_cast, mul_div_cancel_left₀ _ (by norm_num)]

/-- Settles O41: a value within the bounds of the tables fits 64 bits. -/
theorem rawCodeOutputsNeverWrap : Obligations.RawCodeOutputsNeverWrap := by
  simp only [Obligations.RawCodeOutputsNeverWrap, ← s64_eq_toInt_ofInt]
  refine ⟨fun t ht => ?celsius, fun h hh => ?humidity, rfl, rfl⟩
  case celsius =>
    have hc := celsiusFx_bounds ht
    refine ⟨s64_celsiusFx ht, hc.1, hc.2, fun sc => ?_⟩
    have hsc := scaleExact_bounds sc hc
    rw [scaleFx_celsiusFx sc ht]
    exact ⟨rfl, scaleFx_celsiusFx sc ht, hsc⟩
  case humidity =>
    have hrh : -25769803776 ≤ rhFx h ∧ rhFx h ≤ 511092916224 := rhFx_bounds hh
    exact ⟨s64_eq_self_iff.mpr (by omega), hrh⟩

/-- Settles O42: each of the three commands writes the outputs of the same Celsius value, which CELIN holds exactly. -/
theorem celsiusRoundTrip : Obligations.CelsiusRoundTrip := by
  intro s m b0 b1 hpc hresp hrh
  obtain ⟨-, ⟨hmeas, -⟩, -⟩ := measTFollowsItsRule
  obtain ⟨-, -, hlast⟩ := hmeas m
  refine ⟨_, _, _, exec_cvtC _, exec_cvtT _, hlast b0 b1 hpc hresp, ?cvtC, ?measT⟩
  case cvtC =>
    rw [← s64_eq_toInt_ofInt, s64_celsiusFx (b0 ++ b1).isLt]
    rfl
  case measT =>
    rw [← bigEndian_toNat]
    exact congrArg (fun rh => { (withTemps s (celsiusFx (bigEndian b0 b1).toNat)).out with rh }) hrh

/-- Refutes O43: at c = 5124094402860114102, inside the rule's bound, Rankine rounds up to 2^63 and wraps. -/
theorem not_wrapBoundAsTheRuleWordsIt : ¬ Obligations.WrapBoundAsTheRuleWordsIt := by
  intro h
  exact scaleFx_ran_wraps (h .ran 5124094402860114102 (by norm_num [abs_of_nonneg]))

/-- Settles O44: the range in which every scale fits, and Rankine's wrap one above it. -/
theorem wrapBoundExact : Obligations.WrapBoundExact :=
  ⟨fun sc _ hc => scaleFx_eq_scaleExact sc hc, scaleFx_ran_wraps⟩

end Sys2Proof.Machine
end

section
/-! Status codes and failed transactions (60_exceptions.md R600, R601, R605): whatever the shape of its body, a command
that is resumed on a failed answer to one of its transactions ends there, because `check(st)` comes before the rest. -/

namespace Sys2Proof.Machine

open Sys2Proof.Statements

variable {s : State} {p : Params} {i : Instr} {k : Nat} {r : Request} {a : Answer}

/-! ### A failed answer, body by body -/

section
variable (hpc : s.pc = k + 1) (hresp : s.resp = some (responseTo r a)) (ha : a.status ≠ .success)
include hpc hresp ha

theorem read1Body_failure {cmd : List Byte} (results : Byte → State → State)
    (hr : readTransaction p cmd 1 k = some r) :
    read1Body cmd results s = .next (s.complete (transportStatus a.status)) := by
  rcases readTransaction_some hr with ⟨rfl, rfl⟩ | ⟨rfl, rfl⟩
  · exact (read1Body_written _ hpc).trans (afterWrite_failure _ hresp ha)
  · exact (read1Body_read _ hpc).trans (afterRead1_failure _ hresp ha)

theorem read2Body_failure {cmd : List Byte} (results : Byte → Byte → State → State)
    (hr : readTransaction p cmd 2 k = some r) :
    read2Body cmd results s = .next (s.complete (transportStatus a.status)) := by
  rcases readTransaction_some hr with ⟨rfl, rfl⟩ | ⟨rfl, rfl⟩
  · exact (read2Body_written _ hpc).trans (afterWrite_failure _ hresp ha)
  · exact (read2Body_read _ hpc).trans (afterRead2_failure _ hresp ha)

theorem writeBody_failure {bytes : List Byte} (d : Half) (hr : writeTransaction bytes k = some r) :
    writeBody bytes d s = .next (s.complete (transportStatus a.status)) := by
  obtain ⟨rfl, rfl⟩ := writeTransaction_some hr
  exact (writeBody_written hpc).trans (afterWrite_failure _ hresp ha)

theorem rmwBody_failure {rc : Byte} {third : Option (List Byte)} (wc : Byte) (refusal : Byte → Option Status)
    (new : Byte → Byte) (hr : rmwTransaction p rc third k = some r) :
    rmwBody rc wc refusal new s = .next (s.complete (transportStatus a.status)) := by
  rcases rmwTransaction_some hr with ⟨rfl, rfl⟩ | ⟨rfl, rfl⟩ | ⟨rfl, _, rfl⟩
  · exact (rmwBody_written hpc).trans (afterWrite_failure _ hresp ha)
  · rw [rmwBody_read_failure hpc hresp ha, complete_transportStatus ha]
  · exact (rmwBody_rewritten hpc).trans (afterWrite_failure _ hresp ha)

/-- R605 for every command, by the shape of its body; a row without a transaction has none that could fail. -/
theorem exec_failure (hr : transaction s.params s.tmp i k = some r) :
    exec i s = .next (failed s (transportStatus a.status)) := by
  rw [← complete_transportStatus ha]
  cases bodyShape s.params i with
  | read1 cmd results _ hrow hbody =>
    exact (hbody s rfl).trans (read1Body_failure hpc hresp ha results (hrow s.tmp k ▸ hr))
  | read2 cmd results _ hrow hbody =>
    exact (hbody s rfl).trans (read2Body_failure hpc hresp ha results (hrow s.tmp k ▸ hr))
  | write bytes d _ hrow hbody =>
    exact (hbody s rfl).trans (writeBody_failure hpc hresp ha d (hrow s.tmp k ▸ hr))
  | rmw rc wc refusal new _ hrow hbody =>
    exact (hbody s rfl).trans (rmwBody_failure hpc hresp ha wc refusal new (hrow s.tmp k ▸ hr))
  | rejects _ _ hrow | converts _ _ hrow => cases hrow s.tmp k ▸ hr

end

/-! ### The obligations -/

/-- Settles O47: the response the statement names is the one the answer `⟨st, bs⟩` makes, and `exec_failure`. -/
theorem failedTransactionEndsTheCommand : Obligations.FailedTransactionEndsTheCommand := by
  intro s i k r st bs hpc hr hst hwrite hread
  have hresp : s.resp = some (responseTo r ⟨st, bs⟩) := by
    cases r with
    | write addr bytes stop => exact hwrite addr bytes stop rfl
    | read addr n => exact hread addr n rfl
  exact exec_failure hpc hresp hst hr

/-- Settles O21: the model's two tables, row by row. -/
theorem statusCodesHaveTheirNumbers : Obligations.StatusCodesHaveTheirNumbers := by
  unfold Obligations.StatusCodesHaveTheirNumbers
  decide

end Sys2Proof.Machine
end

section
/-! Waiting for the transport (70_reset_and_hazards.md R718; 10_state.md R133): the block has no timeout. -/

namespace Sys2Proof.Machine

/-- Settles O20: of the cases of a step, a body needs that no request is outstanding, and an accept that BUSY = 0,
while the invariant gives BUSY = 1; every case but those, an answer and a block reset keeps the fields. -/
theorem onlyAnswerOrResetEndsTheWait : Obligations.OnlyAnswerOrResetEndsTheWait := by
  intro s t r hinv hp h hreset hanswer
  have hrun := hinv.run_of_pend hp
  have hb := hinv.busy_run.mpr hrun
  obtain ⟨u, l, n, p, rd, hu, rfl⟩ := step_cases h
  generalize s.nextEvent.1 = e at hu hreset hanswer
  cases hu with
  | reset => exact absurd rfl hreset
  | answer _ a _ _ => exact absurd rfl (hanswer a)
  | body _ _ hnone _ => cases hp.symm.trans hnone
  | accept _ _ _ _ _ hidle => cases hb.symm.trans hidle
  | overrun | stat | operand | quiet => exact ⟨hp, hb, hrun, rfl, rfl, rfl, rfl, rfl, rfl, rfl⟩

end Sys2Proof.Machine
end
